-- ==== Sys2Proof/Word.lean ====
section
/-!
DEFINITION. The word types of the PV7-A4 and their plainest arithmetic.
-/

namespace Sys2Proof

/-- A byte. -/
abbrev Byte := BitVec 8

/-- A 64-bit word: a general register, a control-space register (R2), half an instruction. -/
abbrev Word := BitVec 64

/-- A 128-bit Jarma instruction (R75). -/
abbrev Inst128 := BitVec 128

/-- One core cycle count per beat (R34). -/
def cyclesPerBeat : Nat := 64

/-- The largest value of a 64-bit counter, at which it saturates (R485). -/
def cntMax : Nat := 2 ^ 64 - 1

end Sys2Proof
end

