-- ==== Sys2Proof/Machine/Bits.lean ====
section
/-!
DEFINITION. Bit-field, byte-order, table and counter helpers used by every block of the model.
-/

namespace Sys2Proof.Machine

open Sys2Proof

/-- Entry `i` of a table; the default value outside it. -/
def vget {α : Type} {n : Nat} [Inhabited α] (v : Vector α n) (i : Nat) : α :=
  v.toList.getD i default

/-- The table with entry `i` replaced; unchanged when `i` lies outside it. -/
def vset {α : Type} {n : Nat} (v : Vector α n) (i : Nat) (x : α) : Vector α n :=
  v.setIfInBounds i x

/-- The table with entry `i` changed by `f`. -/
def vmod {α : Type} {n : Nat} [Inhabited α] (v : Vector α n) (i : Nat) (f : α → α) : Vector α n :=
  vset v i (f (vget v i))

/-- The table with every entry changed by `f`. -/
def vmap {α β : Type} {n : Nat} (v : Vector α n) (f : α → β) : Vector β n :=
  ⟨⟨v.toList.map f⟩, by simp⟩

/-- The table with every entry changed by `f`, which is also given the entry's index. -/
def vmapIdx {α β : Type} {n : Nat} (v : Vector α n) (f : Nat → α → β) : Vector β n :=
  ⟨⟨v.toList.mapIdx f⟩, by simp⟩

/-- The first `n` entries of a list as a table, filled up with the default. -/
def vofList {α : Type} (n : Nat) [Inhabited α] (l : List α) : Vector α n :=
  ⟨⟨(List.range n).map fun i => l.getD i default⟩, by simp⟩

/-- Bits `[hi:lo]` of a number. -/
def bitsOf (v hi lo : Nat) : Nat := v / 2 ^ lo % 2 ^ (hi + 1 - lo)

/-- Bit `i` of a number. -/
def bitOf (v i : Nat) : Bool := v / 2 ^ i % 2 == 1

/-- Bits `[hi:lo]` of a word, as a number. -/
def fld (w : Word) (hi lo : Nat) : Nat := bitsOf w.toNat hi lo

/-- 1 for true, 0 for false. -/
def b2n (b : Bool) : Nat := if b then 1 else 0

/-- A field value placed at bit `lo`, cut to `width` bits. -/
def putBits (v width lo : Nat) : Nat := (v % 2 ^ width) * 2 ^ lo

/-- A number as a 64-bit word. -/
def toW (n : Nat) : Word := BitVec.ofNat 64 n

/-- A number as a byte. -/
def toB (n : Nat) : Byte := BitVec.ofNat 8 n

/-- A field of `w` bits read as two's complement. -/
def sextN (w v : Nat) : Int :=
  if v % 2 ^ w < 2 ^ (w - 1) then (v % 2 ^ w : Nat) else (v % 2 ^ w : Nat) - (2 ^ w : Nat)

/-- An integer as a 64-bit word, modulo 2^64. -/
def intW (i : Int) : Word := BitVec.ofInt 64 i

/-- A count of `w` bits raised by `n`, saturating (R485). -/
def satAdd (w a n : Nat) : Nat := max a (min (a + n) (2 ^ w - 1))

/-- Counter `k` of a bank raised by `n`, saturating at 2^64 − 1 (R485). -/
def bumpBy {m : Nat} (v : Vector Nat m) (k n : Nat) : Vector Nat m :=
  vset v k (satAdd 64 (vget v k) n)

/-- Counter `k` of a bank raised by 1 (R485). -/
def bump {m : Nat} (v : Vector Nat m) (k : Nat) : Vector Nat m := bumpBy v k 1

/-- The `n` little-endian bytes of a number. -/
def leBytes : Nat → Nat → List Byte
  | 0, _ => []
  | n + 1, v => toB v :: leBytes n (v / 256)

/-- The number that little-endian bytes spell. -/
def ofLE : List Byte → Nat
  | [] => 0
  | b :: bs => b.toNat + 256 * ofLE bs

/-- The number that most-significant-first bytes spell. -/
def ofBE (bs : List Byte) : Nat := ofLE bs.reverse

/-- Little-endian field of `n` bytes at byte `i` of a message. -/
def leAt (bs : List Byte) (i n : Nat) : Nat := ofLE ((bs.drop i).take n)

/-- `a` divided by `b`, rounded up. -/
def ceilDiv (a b : Nat) : Nat := (a + b - 1) / b

/-- `a` rounded up to a multiple of `b`. -/
def roundUp (a b : Nat) : Nat := ceilDiv a b * b

/-- `a` and `a + la` overlap `b` and `b + lb` as half-open ranges. -/
def rangesMeet (a la b lb : Nat) : Bool := la != 0 && lb != 0 && a < b + lb && b < a + la

/-- The list without the first entry that satisfies `p`. -/
def dropFirst {α : Type} (p : α → Bool) : List α → List α
  | [] => []
  | x :: xs => if p x then xs else x :: dropFirst p xs

/-- The list with the first entry that satisfies `p` changed by `f`. -/
def modFirst {α : Type} (p : α → Bool) (f : α → α) : List α → List α
  | [] => []
  | x :: xs => if p x then f x :: xs else x :: modFirst p f xs

/-- The value a key has in an association list, or a default. -/
def alGet {β : Type} (l : List (Nat × β)) (k : Nat) (d : β) : β :=
  match l with
  | [] => d
  | (k', v) :: r => if k' = k then v else alGet r k d

/-- An association list with one key set. -/
def alSet {β : Type} (l : List (Nat × β)) (k : Nat) (v : β) : List (Nat × β) :=
  match l with
  | [] => [(k, v)]
  | (k', v') :: r => if k' = k then (k, v) :: r else (k', v') :: alSet r k v

/-- The sum of a list. -/
def sumL (l : List Nat) : Nat := l.foldl (· + ·) 0

/-- The largest of a list, at least `d`. -/
def maxL (d : Nat) (l : List Nat) : Nat := l.foldl max d

/-- The least of a list, at most `d`. -/
def minL (d : Nat) (l : List Nat) : Nat := l.foldl min d

/-- A list with one entry put before the first that it does not come after. -/
def insertBy {α : Type} (le : α → α → Bool) (x : α) : List α → List α
  | [] => [x]
  | y :: ys => if le x y then x :: y :: ys else y :: insertBy le x ys

/-- A list in the order of `le`, ties in the order they stand. -/
def sortBy {α : Type} (le : α → α → Bool) : List α → List α
  | [] => []
  | x :: xs => insertBy le x (sortBy le xs)

/-- Bits set in the low `w` bits. -/
def popc (n w : Nat) : Nat := ((List.range w).filter fun i => bitOf n i).length

/-- Repeated application. -/
def iter {α : Type} (f : α → α) : Nat → α → α
  | 0, x => x
  | n + 1, x => iter f n (f x)

end Sys2Proof.Machine
end

