-- ==== Sys2Proof/Machine/Types.lean ====
section
/-!
DEFINITION. The plain data that commands carry and that the state holds: instruction headers, log records, journal
records, messages and their bodies.
-/

namespace Sys2Proof.Machine

open Sys2Proof

/-- The header fields of a Jarma instruction that are not its queue and opcode (Table 3.3). -/
structure Hdr where
  pneg : Bool := false
  pred : BitVec 3 := 0
  wtok : BitVec 6 := 0
  wval : BitVec 4 := 0
  stok : BitVec 6 := 0
  sval : BitVec 4 := 0
  nb : BitVec 24 := 0
  mod : BitVec 5 := 0
deriving DecidableEq, Repr, Inhabited

/-- The address field of a log record by kind (Table 17.6). -/
inductive LogAddr where
  | none
  | object (handle offset : Nat)
  | stockpot (slice bank row seg word : Nat)
  | far (ch sub rank page : Nat)
  | skillet (addr : Nat)
  | hostIO (addr : Nat)
  | ctrl (off : Nat)
  | link (port lane half name : Nat)
deriving DecidableEq, Repr, Inhabited

/-- What a log record says before the ring gives it its SEQ (Table 17.5). Defaults are those of an event of the
H-die that no core, object or command is the source of. -/
structure LogEv where
  code : Nat
  die : Nat := 4
  region : Nat := 0
  engine : Nat := 7
  core : Nat := 0xFF
  unit : Nat := 0
  inst : Nat := 0
  addr : LogAddr := .none
  sub : Nat := 0
  cause : Nat := 0
  pkg : Nat := 0
  pc : Nat := 0
  acceptNo : Nat := 0
  extra : Nat := 0
deriving DecidableEq, Repr, Inhabited

/-- A record of the log ring (Table 17.5). -/
structure LogRec where
  ev : LogEv
  beat : Nat
  pkgId : Nat
  seq : Nat
  sent : Bool
  suppressedBefore : Bool
deriving DecidableEq, Repr, Inhabited

/-- An entry of a command's object list (Table 12.3). -/
structure ObjEntry where
  handle : Nat
  role : Nat
deriving DecidableEq, Repr, Inhabited

/-- An entry of a PREPARE or COMMIT record's output list (Table 12.7). -/
structure OutEntry where
  handle : Nat
  role : Nat
  extents : Nat
  charge : Nat
  mapAddr : Nat
deriving DecidableEq, Repr, Inhabited

/-- The body of a DECISION record or message (Tables 12.6 and 12.11): kind 1 COMMIT, 2 ABORT, 3 FAIL. -/
structure Decision where
  gid : Nat
  epoch : Nat
  kind : Nat
  cause : Nat := 0
  first : Nat := 0
  beat : Nat := 0
deriving DecidableEq, Repr, Inhabited

/-- The payload of a journal record by type (Table 12.6). -/
inductive JPayload where
  | accept (message : List Byte)
  | prepare (outs : List OutEntry)
  | commitLocal (outs : List OutEntry)
  | commitGroup (d : Nat)
  | abort (restart : Nat)
  | fail
  | decision (d : Decision) (rerunDelay : Nat)
  | held (handle offset : Nat)
  | done (result : Nat) (data : List Byte)
deriving DecidableEq, Repr, Inhabited

/-- A journal record (Table 12.5). -/
structure JRec where
  acceptNo : Nat
  seq : Nat
  identity : Nat := 0
  beat : Nat
  req : Nat := 0
  code : Nat := 0
  epoch : Nat := 0
  client : Nat := 0
  part : Nat := 0
  job : Nat := 0
  payload : JPayload
deriving DecidableEq, Repr, Inhabited

/-- A PUT arrival (Table 4.15) with the sender that its message header names. -/
structure PutArrival where
  srcPkg : Nat
  srcCore : Nat
  dstCore : Nat
  tag : Nat
  identity : Nat
  epoch : Nat
  win : Nat
  mode : Bool
  offset : Nat
  index : Nat
  data : List Byte
deriving DecidableEq, Repr, Inhabited

/-- A credit on its way to a sender (R127), with the owner that its message header names. -/
structure GrantBody where
  srcPkg : Nat
  srcCore : Nat
  dstCore : Nat
  tag : Nat
  identity : Nat
  epoch : Nat
  win : Nat
  winEpoch : Nat
  offset : Nat
  length : Nat
deriving DecidableEq, Repr, Inhabited

/-- The body of a VOTE message (Table 12.11): kind 1 COMMIT, 2 ABORT, 3 FAIL, 4 QUERY. -/
structure Vote where
  gid : Nat
  epoch : Nat
  kind : Nat
  cause : Nat := 0
  voter : Nat := 0
  restart : Nat := 0
  rerunDelay : Nat := 0
deriving DecidableEq, Repr, Inhabited

/-- The body of a REPLY (Table 12.4): kind 1 ACCEPT, 2 REJECT, 3 COMPLETE, 4 FAILED. -/
structure Reply where
  kind : Nat
  code : Nat := 0
  attempts : Nat := 0
  limit : Bool := false
  dup : Bool := false
  sub : Nat := 0
  cause : Nat := 0
  pkg : Nat := 0
  req : Nat
  acceptNo : Nat := 0
  result : Nat := 0
  data : List Byte := []
deriving DecidableEq, Repr, Inhabited

/-- The answer to a PUT arrival (Table 4.5). -/
inductive PutResult where
  | written
  | stale
  | violation (code : Nat)
deriving DecidableEq, Repr, Inhabited

/-- The answer to a credit (R127). -/
inductive GrantResult where
  | accepted
  | dropped
  | full
deriving DecidableEq, Repr, Inhabited

/-- The body of a message that the package sends (Table 11.8). -/
inductive Body where
  | ready (gid k : Nat)
  | slip (gid k rk cause : Nat)
  | vote (v : Vote)
  | decision (d : Decision)
  | put (p : PutArrival)
  | grant (g : GrantBody)
  | mirror (r : JRec)
  | slotWrite (part slot page gen : Nat) (data : List Byte)
  /-- A seal record of a partition's slot at the partner: 0 its clearing, 1 the seal, 2 and 3 pointer copies 0 and 1
  (R392; DESIGN CHOICE, assumption 23). -/
  | sealRec (what part slot : Nat) (bytes : List Byte)
  | pair (pkg feed partner slotGib : Nat)
  | hostRead (addr len : Nat)
  | hostWrite (addr : Nat) (data : List Byte)
  | putAck (r : PutResult)
  | grantAck (r : GrantResult)
  | mirrorAck (ok : Bool)
  /-- The result of SLOT_WRITE, SEAL or PAIR; for PAIR, the valid images held: partition, slot, generation. -/
  | slotAck (code sub : Nat) (slots : List (Nat × Nat × Nat))
  | reply (r : Reply)
  | csrReply (code : Nat) (value : Word)
  | event (r : LogRec)
  | parityNak (mtype : Nat)
  | error (code mtype : Nat)
  /-- A message forwarded for another package, as it was received. -/
  | raw (bytes : List Byte)
deriving DecidableEq, Repr, Inhabited

/-- A message with the header fields that the sender chooses (Table 11.6). -/
structure Msg where
  body : Body
  dst : Nat := 0
  src : Nat := 0
  dunit : Nat := 0
  sunit : Nat := 0
  tag : Nat := 0
  /-- Bounds of the box of a broadcast, REM, and dimension of arrival (R336). -/
  box : Option (Nat × Nat) := none
  rem : Nat := 0
  dim : Nat := 0
  dlc : Bool := false
  dir : Bool := false
deriving DecidableEq, Repr, Inhabited

/-- How a message reached its unit: the port (17 for a unit of the same package), its source package and unit, its TAG,
and whether its parity trailer passes (R329). -/
structure Via where
  port : Nat := 17
  src : Nat
  unit : Nat := 0xF1
  tag : Nat := 0
  good : Bool := true
deriving DecidableEq, Repr, Inhabited

/-- A structure that a targeted self-test names (Table 10.4). -/
inductive TestLoc where
  | row (slice bank row : Nat)
  | farPage (page : Nat)
  | skilletBank (core bank : Nat)
  | coreStore (core which : Nat)
  | coreLogic (core : Nat)
  | d2dHalf (link half : Nat)
  | lane (port lane : Nat)
deriving DecidableEq, Repr, Inhabited

/-- How an access went at its tier, of a granule or of a copy of the Tongs (R24, R286, R291, R296): with parity rereads that
passed; with a Stockpot segment, the one of object byte `off`, whose reread failed; with a delay by a far-memory reread
or a link retransmission; or with an uncorrectable far-memory word in the page of object byte `off`, in a subchannel and
rank that the controller's function gives (R502). -/
inductive GranOutcome where
  | ok (rereads : Nat)
  | recon (rereads off : Nat)
  | replay
  | farBad (sub rank off : Nat)
deriving DecidableEq, Repr, Inhabited

/-- What a row reconstruction finds (R291, R293, R295): the segment rebuilt, with the cycles that demand accesses held it
back; a second bad segment; or a second bad segment in a row that holds a copy of an entry's metadata, and whether the
other copy is bad too. -/
inductive RowFound where
  | rebuilt (held : Nat)
  | second
  | metadata (idx : Nat) (both : Bool)
deriving DecidableEq, Repr, Inhabited

/-- A block reset in progress (R428). -/
inductive BlockReset where
  | core (n : Nat)
  | region (n : Nat)
  | die (n : Nat)
deriving DecidableEq, Repr, Inhabited

/-- What a boot step finds (Table 14.6): milliseconds since release; whether it succeeds; the image that the local flash
delivers; dies whose bring-up fails, far channels that train, whether the flash is usable, width and PCIe generation of
the root port; structures that the full BIST finds lasting. -/
structure BootInfo where
  ms : Nat := 0
  ok : Bool := true
  image : List Byte := []
  failedDies : List Nat := []
  trained : Nat := 0xFFFFFF
  flashOk : Bool := true
  pcieWidth : Nat := 4
  pcieRate : Nat := 6
  faults : List TestLoc := []
deriving DecidableEq, Repr, Inhabited

/-- Acknowledgement and credits, which any flit carries (Table 11.3); of one received, also the byte positions that decoding
corrected (R318). -/
structure FlitHdr where
  ack : Nat := 0
  ackv : Bool := false
  cvc : Nat := 0
  ccount : Nat := 0
  corr : List Nat := []
deriving DecidableEq, Repr, Inhabited

/-- An IDENT flit (R339). -/
structure IdentFlit where
  pkg : Nat
  port : Nat
  role : Bool
  rings : Nat
  mode : Nat
  verdict : Bool
  reject : Bool
deriving DecidableEq, Repr, Inhabited

/-- A KEEPALIVE flit (Table 11.13). -/
structure KeepFlit where
  pkg : Nat
  port : Nat
  st : Nat
  fp : Nat
  beat : Nat
deriving DecidableEq, Repr, Inhabited

/-- How a broadcast arrived (R336): its box, the dimension and direction it came in, the hops left, and its dateline
class. -/
structure Arrival where
  lo : Nat
  hi : Nat
  dim : Nat
  minus : Bool
  rem : Nat
  dlc : Bool
deriving DecidableEq, Repr, Inhabited

/-- What the package hands to a port's transmitter, puts on a pin or on the sideband, oldest first. -/
inductive OutItem where
  | msg (port : Nat) (m : Msg)
  | close (core slice : Nat)
  | nvmeWrite (lba : Nat) (fua : Bool)
  | nvmeFlush
  | side (bytes : List Byte)
  | lpReset (channel us : Nat)
deriving DecidableEq, Repr, Inhabited

end Sys2Proof.Machine
end

