-- ==== Sys2Proof/Syntax.lean ====
section
/-!
DEFINITION. The commands of the package: one constructor for each row of the manual's table of operations and events.
Operands carry what the manual leaves to the sender, to the engines' physical work or to the outside world.
-/

namespace Sys2Proof

open Sys2Proof.Machine

/-- The commands. A Jarma instruction names the core whose sequencer fetches it, its header and its body; a message
names its fields; an event names the unit it befalls and what the outside world decides of it. -/
inductive Instr where
  /-- CSR_READ (R6): A control-space read arrives on the host port; it is checked for width, offset and reset state and answered with CSR_REPLY. -/
  | csrRead (v : Via) (off width : Nat)
  /-- CSR_WRITE (R7): A control-space write to a register with no row of its own is checked under R6 and applied under the access codes of R3. -/
  | csrWrite (v : Via) (off width : Nat) (value : Word)
  /-- D2D_RETRANSMIT (R24): A word fails parity at a die-to-die receiver and is retransmitted from the sender's buffer; the retransmission is counted and may start a half test. -/
  | d2dRetransmit (link half : Nat)
  /-- PLL_LOCK (R501): The PLL locks to REFCLK and the beat unit leaves UNLOCKED for FREQ_LOCKED, or for PHASE_LOCKED at a mode 0b10 root. -/
  | pllLock
  /-- REFCLK_LOST (R476): No REFCLK rising edge arrives for 1 µs, so the beat unit goes UNLOCKED and local and group commands are aborted with code 0x31. -/
  | refclkLost
  /-- BEAT_SYNC_PULSE (R50): A BEAT_SYNC rising edge arrives and is used for tracking, for phase lock or for the return of sync, or is ignored and logged. -/
  | beatSyncPulse (cyc : Nat)
  /-- SYNC_LOST (R51): No pulse or marker arrives within the window, or three in a row are ignored, so the package enters holdover. -/
  | syncLost
  /-- HOLDOVER_EXPIRED (R51): Holdover reaches 2^20 beats, so the package falls to FREQ_LOCKED and votes abort in its groups. -/
  | holdoverExpired
  /-- NO_ROOT (R42): A package without a root stays 2^20 beats after PLL lock with no TIME_LOCKED marker, and it logs code 0x3C once. -/
  | noRoot
  /-- BEAT_SEED (R47): A write to BEAT_SEED is held as the pending seed at a PHASE_LOCKED root, or is refused at once with code 0x3B. -/
  | beatSeed (v : Via) (value : Nat)
  /-- SEED_COMPARE (R47): At the next pulse edge the pending seed is compared with the edge number, and the count is seeded to TIME_LOCKED or the seed is refused. -/
  | seedCompare
  /-- MARKER (R48): A MARKER flit is received; it is used for phase tracking and for adopting the count, or it is compared with a TIME_LOCKED count. -/
  | marker (port : Nat) (h : FlitHdr) (cyc value depth : Nat) (hold : Bool) (d : Nat)
  /-- MARKER_SEND (R341): At a beat edge whose low 16 bits are 0, a TIME_LOCKED package sends a MARKER flit on every trained port. -/
  | markerSend
  /-- RDV (R369): The Exchange rendezvous instruction marks a core ready for rendezvous k; when every core has executed it, the package sends READY. -/
  | rdv (core : Nat) (h : Hdr) (b : Word)
  /-- RENDEZVOUS_LEAD (R59): Beat R_k − H is reached without READY, so the package sends and applies SLIP, or votes abort once MAX_SLIPS is reached. -/
  | rendezvousLead (a k : Nat)
  /-- SLIP (R61): A SLIP message is received; it moves the group base by 512 beats, is counted as a duplicate, or arrives too late and causes an abort vote. -/
  | slip (v : Via) (gid k rk cause : Nat) (arr : Option Arrival)
  /-- READY (R63): A READY message from a peer is recorded for its rendezvous index. -/
  | ready (v : Via) (gid k : Nat)
  /-- RENDEZVOUS_REACHED (R63): Beat R_k is reached; the step starts if READY is held from every peer, otherwise code 0x37 is logged and the package votes abort. -/
  | rendezvousReached (a : Nat)
  /-- START_BEAT_REACHED (R55): A core in WAITING_START reaches its group start beat and begins fetching. -/
  | startBeatReached (core : Nat)
  /-- NOP (R99): The sequencer no-operation; only its header fields act. -/
  | nop (core : Nat) (h : Hdr) (b : Word)
  /-- ADD (R99): Sequencer add of two general registers. -/
  | add (core : Nat) (h : Hdr) (b : Word)
  /-- SUB (R99): Sequencer subtract of two general registers. -/
  | sub (core : Nat) (h : Hdr) (b : Word)
  /-- MUL (R99): Sequencer multiply giving the low 64 bits. -/
  | mul (core : Nat) (h : Hdr) (b : Word)
  /-- AND (R99): Sequencer bitwise AND. -/
  | andOp (core : Nat) (h : Hdr) (b : Word)
  /-- OR (R99): Sequencer bitwise OR. -/
  | orOp (core : Nat) (h : Hdr) (b : Word)
  /-- XOR (R99): Sequencer bitwise XOR. -/
  | xor (core : Nat) (h : Hdr) (b : Word)
  /-- SHL (R99): Sequencer shift left by a register amount. -/
  | shl (core : Nat) (h : Hdr) (b : Word)
  /-- SHR (R99): Sequencer logical shift right by a register amount. -/
  | shr (core : Nat) (h : Hdr) (b : Word)
  /-- SRA (R99): Sequencer arithmetic shift right by a register amount. -/
  | sra (core : Nat) (h : Hdr) (b : Word)
  /-- MIN (R99): Sequencer signed minimum. -/
  | minOp (core : Nat) (h : Hdr) (b : Word)
  /-- MAX (R99): Sequencer signed maximum. -/
  | maxOp (core : Nat) (h : Hdr) (b : Word)
  /-- ADDI (R99): Sequencer add of a sign-extended immediate. -/
  | addi (core : Nat) (h : Hdr) (b : Word)
  /-- ANDI (R99): Sequencer AND with a zero-extended immediate. -/
  | andi (core : Nat) (h : Hdr) (b : Word)
  /-- SHLI (R99): Sequencer shift left by an immediate amount. -/
  | shli (core : Nat) (h : Hdr) (b : Word)
  /-- SHRI (R99): Sequencer logical shift right by an immediate amount. -/
  | shri (core : Nat) (h : Hdr) (b : Word)
  /-- MOVI (R99): Sequencer load of a sign-extended 48-bit immediate. -/
  | movi (core : Nat) (h : Hdr) (b : Word)
  /-- MOVH (R99): Sequencer insertion of 16 bits into the top of a register. -/
  | movh (core : Nat) (h : Hdr) (b : Word)
  /-- CMP (R100): Sequencer register comparison that sets a predicate. -/
  | cmp (core : Nat) (h : Hdr) (b : Word)
  /-- CMPI (R100): Sequencer comparison with an immediate that sets a predicate. -/
  | cmpi (core : Nat) (h : Hdr) (b : Word)
  /-- PLOG (R99): Sequencer logical combination of two predicates. -/
  | plog (core : Nat) (h : Hdr) (b : Word)
  /-- BEATGE (R99): Sets a predicate when the beat count has reached the base plus an offset. -/
  | beatge (core : Nat) (h : Hdr) (b : Word)
  /-- TSET (R82): Sets a token counter to an immediate value. -/
  | tset (core : Nat) (h : Hdr) (b : Word)
  /-- TADD (R82): Adds an immediate to a token counter, with fault 0x4A on overflow. -/
  | tadd (core : Nat) (h : Hdr) (b : Word)
  /-- TGET (R99): Reads a token counter into a general register. -/
  | tget (core : Nat) (h : Hdr) (b : Word)
  /-- TWAIT (R99): Waits until a token counter reaches a value, consuming nothing. -/
  | twait (core : Nat) (h : Hdr) (b : Word)
  /-- BR (R86): Relative branch, conditional through the predicate. -/
  | br (core : Nat) (h : Hdr) (b : Word)
  /-- JR (R86): Absolute jump to a register address. -/
  | jr (core : Nat) (h : Hdr) (b : Word)
  /-- CALL (R86): Pushes a return address and branches relative, with fault 0x49 on stack overflow. -/
  | callOp (core : Nat) (h : Hdr) (b : Word)
  /-- RET (R86): Pops a return address, with fault 0x49 on an empty stack. -/
  | ret (core : Nat) (h : Hdr) (b : Word)
  /-- LOOP (R86): Decrements a register and branches while it is nonzero. -/
  | loopOp (core : Nat) (h : Hdr) (b : Word)
  /-- RACE (R87): Takes a race slot and issues a deadline-bounded Ladle fetch, or loses at dispatch if the deadline has passed. -/
  | race (core : Nat) (h : Hdr) (b : Word)
  /-- RJOIN (R90): Resolves a race slot, continuing on WON or branching to the alternate block on LOST. -/
  | rjoin (core : Nat) (h : Hdr) (b : Word)
  /-- LD (R99): Loads a 64-bit Skillet word into a register. -/
  | ld (core : Nat) (h : Hdr) (b : Word)
  /-- ST (R99): Stores a register as a 64-bit Skillet word. -/
  | st (core : Nat) (h : Hdr) (b : Word)
  /-- GETS (R101): Reads a special value such as the core number or the beat count. -/
  | gets (core : Nat) (h : Hdr) (b : Word)
  /-- FENCE (R84): Stops dispatch until the named queues, and optionally remote writes, have completed. -/
  | fence (core : Nat) (h : Hdr) (b : Word)
  /-- END (R97): Stops dispatch and puts the core in DRAINING; races still pending are cancelled. -/
  | endProg (core : Nat) (h : Hdr) (b : Word)
  /-- ABORT (R97): Raises fault 0x4C with a 16-bit detail. -/
  | abortProg (core : Nat) (h : Hdr) (b : Word)
  /-- IBUF_REFILL (R74): An instruction-buffer line read from the Skillet completes and fetch resumes. -/
  | ibufRefill (core : Nat)
  /-- INSTRUCTION_COMPLETE (R81): An engine instruction completes; its writes become visible and its header signal is added to its token. -/
  | instructionComplete (core q idx rereads : Nat)
  /-- RACE_DEADLINE (R89): A pending race reaches its deadline edge, becomes LOST, and its fetch is cancelled with tag epochs advanced. -/
  | raceDeadline (core slot : Nat)
  /-- FAULT (R93): An engine or the sequencer raises a fault; the core stops, empties its queues, logs the fault and enters ABORTING. -/
  | faultRaise (core q code pc : Nat) (addr : LogAddr) (detail : Nat)
  /-- ABORTING_COMPLETE (R218): An aborting core's issued stores and scatters are all accepted or refused, so it enters IDLE. -/
  | abortingComplete (core : Nat)
  /-- DRAIN_COMPLETE (R97): A DRAINING core's queued and in-flight work completes and the core enters IDLE. -/
  | drainComplete (core : Nat)
  /-- NO_PROGRESS (R96): The core makes no progress for SEQ_WDOG.LIMIT beats and raises fault 0x4E. -/
  | noProgress (core : Nat)
  /-- WOPEN (R120): Opens a receive window slot in credit or counter mode. -/
  | wopen (core : Nat) (h : Hdr) (b : Word)
  /-- WCLOSE (R130): Closes a window slot, cancels its credits and advances its epoch. -/
  | wclose (core : Nat) (h : Hdr) (b : Word)
  /-- GRANT (R127): The Exchange instruction that sends a credit for a window range to one sender core. -/
  | grant (core : Nat) (h : Hdr) (b : Word)
  /-- PUT (R124): A remote write, sent as arrivals of up to 2 KiB once a credit covers it in credit mode. -/
  | put (core : Nat) (h : Hdr) (b : Word)
  /-- PUT_MSG (R122): A PUT arrival message is received and is written, dropped as stale or refused as a violation, then acknowledged. -/
  | putMsg (v : Via) (p : PutArrival)
  /-- PUT_ACK (R123): A PUT acknowledgement is received; WRITTEN completes the arrival, STALE is counted, and a violation is raised as a fault. -/
  | putAck (v : Via) (core : Nat) (r : PutResult)
  /-- GRANT_MSG (R127): A credit message reaches the sender core and is accepted, dropped or answered FULL. -/
  | grantMsg (v : Via) (g : GrantBody)
  /-- GRANT_ACK (R127): The owner receives ACCEPTED, DROPPED or FULL for a credit and completes GRANT or keeps resending. -/
  | grantAck (v : Via) (core : Nat) (r : GrantResult)
  /-- GRANT_RESEND (R127): The owner resends a credit answered FULL, once per beat. -/
  | grantResend (core tag : Nat)
  /-- MSHAPE (R137): Changes the matrix-engine shape and empties every stationary set. -/
  | mshape (core : Nat) (h : Hdr) (b : Word)
  /-- SLOAD (R145): Loads a stationary tile into the shadow set of a sub-array. -/
  | sload (core : Nat) (h : Hdr) (b : Word)
  /-- IFILL (R148): Fills an ME input buffer from the Skillet, straight or transposed. -/
  | ifill (core : Nat) (h : Hdr) (b : Word)
  /-- MMUL (R150): Streams buffer columns through the named sub-arrays into the ACC. -/
  | mmul (core : Nat) (h : Hdr) (b : Word)
  /-- ACCST (R153): Copies ACC rows to the Skillet. -/
  | accst (core : Nat) (h : Hdr) (b : Word)
  /-- VE_ADD (R170): Vector elementwise add. -/
  | veAdd (core : Nat) (h : Hdr) (b : Word)
  /-- VE_SUB (R170): Vector elementwise subtract. -/
  | veSub (core : Nat) (h : Hdr) (b : Word)
  /-- VE_MUL (R170): Vector elementwise multiply. -/
  | veMul (core : Nat) (h : Hdr) (b : Word)
  /-- FMA (R170): Vector fused multiply-add, rounded once. -/
  | fma (core : Nat) (h : Hdr) (b : Word)
  /-- VE_MIN (R170): Vector elementwise minimum. -/
  | veMin (core : Nat) (h : Hdr) (b : Word)
  /-- VE_MAX (R170): Vector elementwise maximum. -/
  | veMax (core : Nat) (h : Hdr) (b : Word)
  /-- UNARY (R170): Vector negate, absolute value or copy. -/
  | unary (core : Nat) (h : Hdr) (b : Word)
  /-- BIT (R172): Vector bitwise logic or shift on integer formats. -/
  | bitOp (core : Nat) (h : Hdr) (b : Word)
  /-- VE_CMP (R173): Vector comparison that writes a mask array. -/
  | veCmp (core : Nat) (h : Hdr) (b : Word)
  /-- CVT (R175): Vector conversion between formats, including MX block scaling. -/
  | cvt (core : Nat) (h : Hdr) (b : Word)
  /-- REDUCE (R174): Vector reduction of groups in a fixed order. -/
  | reduce (core : Nat) (h : Hdr) (b : Word)
  /-- FUNC (R186): Evaluates a loaded function table for each element. -/
  | funcOp (core : Nat) (h : Hdr) (b : Word)
  /-- FTLOAD (R184): Loads a function-table image into a table slot. -/
  | ftload (core : Nat) (h : Hdr) (b : Word)
  /-- COMPRESS (R182): Packs the active elements and sets a token to their count. -/
  | compress (core : Nat) (h : Hdr) (b : Word)
  /-- EXPAND (R182): Scatters packed elements to the active positions and sets a token to their count. -/
  | expand (core : Nat) (h : Hdr) (b : Word)
  /-- SLICE (R188): Splits binary64 or binary32 values into INT8 slice planes, or joins planes back. -/
  | slice (core : Nat) (h : Hdr) (b : Word)
  /-- COMBINE (R191): Combines wide ACC bands into binary64 or binary32 results. -/
  | combine (core : Nat) (h : Hdr) (b : Word)
  /-- VSEED (R180): Reseeds the stochastic generator of every lane. -/
  | vseed (core : Nat) (h : Hdr) (b : Word)
  /-- XFER (R200): Issues a batch of stream descriptors through the Ladle. -/
  | xfer (core : Nat) (h : Hdr) (b : Word)
  /-- GATHER (R222): Colander gather of indexed object elements into the Skillet. -/
  | gather (core : Nat) (h : Hdr) (b : Word)
  /-- SCATTER (R222): Colander scatter of Skillet elements to indexed object positions. -/
  | scatter (core : Nat) (h : Hdr) (b : Word)
  /-- GRANULE_LANDED (R208): A fetch or gather granule's response arrives; it is written to the Skillet, or dropped for a stale epoch, and the descriptor and race state advance. -/
  | granuleLanded (core tag : Nat) (o : GranOutcome)
  /-- STORE_ACCEPTED (R208): A store or scatter granule is accepted by its tier; its tag frees and watched granules it overlaps become stale. -/
  | storeAccepted (core tag : Nat) (o : GranOutcome)
  /-- WATCH_CLOSE_ACK (R211): Every tier acknowledges a watched descriptor's close with no granule stale, so the descriptor completes. -/
  | watchCloseAck (core id idx : Nat)
  /-- WHISK_TILE_WRITTEN (R221): The Whisk transposer finishes writing a tile and frees its tag. -/
  | whiskTileWritten (core : Nat)
  /-- LDL_REG_WRITE (R207): A write to a regulator bucket takes effect at the next beat edge and clamps LEVEL. -/
  | ldlRegWrite (v : Via) (core tier : Nat) (enable : Bool) (burst rate : Nat)
  /-- CREATE (R255): Object request that takes an entry, allocates extents and fills them. -/
  | create (v : Via) (m : List Byte)
  /-- CREATE_FILL_COMPLETE (R255): The zero fill of a new object ends and the entry becomes RESIDENT. -/
  | createFillComplete (a : Nat)
  /-- FREE (R256): Object request that frees an entry, or is refused with code 0x57 or 0x53. -/
  | freeObj (v : Via) (m : List Byte)
  /-- MOVE (R258): Object request that moves the current version to another tier, placement or codec. -/
  | moveObj (v : Via) (m : List Byte)
  /-- EVICT (R263): Object request for a Press-coded copy in a lower tier, queued while the move lock is held. -/
  | evict (v : Via) (m : List Byte)
  /-- SETFLAGS (R252): Object request that sets PIN, SECURE and EVICTABLE. -/
  | setflags (v : Via) (m : List Byte)
  /-- OBJ_GRANT (R270): Object request that grants read access to a partition. -/
  | objGrant (v : Via) (m : List Byte)
  /-- REVOKE (R270): Object request that revokes a partition's read access. -/
  | revoke (v : Via) (m : List Byte)
  /-- QUERY (R252): Object request that returns the 64-byte home entry. -/
  | query (v : Via) (m : List Byte)
  /-- MAP (R252): Object request that returns extent locators. -/
  | mapObj (v : Via) (m : List Byte)
  /-- POOL_ADD (R279): Object request that adds host extents to the host pool. -/
  | poolAdd (v : Via) (m : List Byte)
  /-- MOVE_COPY_DONE (R258): A move's copy finishes; the entry flips and the region home caches are invalidated. -/
  | moveCopyDone (idx : Nat) (rereads : List Nat) (o : GranOutcome)
  /-- FLIP_COMPLETE (R260): All 16 regions acknowledge a flip; the lock returns to NONE and the request completes. -/
  | flipComplete (idx : Nat)
  /-- EXTENT_RELEASE (R259): The last granule translated to old extents completes, so the extents and their charge are released. -/
  | extentRelease (id : Nat)
  /-- GRANT_INVAL_COMPLETE (R270): All regions acknowledge the invalidation of a GRANT or REVOKE, so the request completes. -/
  | grantInvalComplete (a : Nat)
  /-- ALLOCATION_TIMEOUT (R266): An allocation waiting on evictions exceeds EVICT_WAIT and fails with code 0x51 or 0x52. -/
  | allocationTimeout (a : Nat) (auto : Option Nat)
  /-- QUOTA_LIMIT_WRITE (R268): A write to a quota LIMIT sets or clears OVER without evicting. -/
  | quotaLimitWrite (v : Via) (client tier : Nat) (auto : Bool) (limit : Nat)
  /-- HOST_READ_REPLY (R278): A host read reply delivers data, or NOT_MAPPED, which is handled as a page fault. -/
  | hostReadReply (v : Via) (data : Option (List Byte))
  /-- HOST_WRITE_REPLY (R278): A host write reply is ACCEPTED or NOT_MAPPED. -/
  | hostWriteReply (v : Via) (accepted : Bool) (o : GranOutcome)
  /-- HOST_TIMEOUT (R278): A host-tier request goes unanswered for 65,536 beats and is treated as NOT_MAPPED with code 0x5C. -/
  | hostTimeout (tag : Nat)
  /-- ROW_RECONSTRUCTED (R291): A Stockpot segment is rebuilt from its row's XOR and delivered, and the row's targeted test begins. -/
  | rowReconstructed (slice bank row seg : Nat) (f : RowFound)
  /-- ROW_SPARE_COPY_DONE (R299): A row is copied to a spare row and remapped, freeing its rebuild entry and starting the pattern test. -/
  | rowSpareCopyDone (slice bank row : Nat)
  /-- PATROL_READ (R294): Every 16 beats a slice controller reads one row and starts a reconstruction on a stored flip. -/
  | patrolRead (slice rereads : Nat) (bad : Option Nat)
  /-- ECC_REPORT_POLL (R296): Every 65,536 beats the firmware reads the far-memory on-die ECC correction reports. -/
  | eccReportPoll (n : Nat)
  /-- TEST_COMPLETE (R301): A targeted self-test ends and its structure is returned as transient or handled as lasting. -/
  | testComplete (l : TestLoc) (errors : Nat)
  /-- DEFERRED_TEST_START (R304): A test deferred by a hold or a busy core starts once its domain allows it. -/
  | deferredTestStart (l : TestLoc)
  /-- BANK_SPARE_COPY_DONE (R302): A Stockpot bank copy to a spare bank completes and the bank is remapped. -/
  | bankSpareCopyDone (slice : Nat) (found : List (Nat × Nat × RowFound))
  /-- SLICE_RETIRED (R302): The last extent leaves a RETIRING slice and the slice becomes RETIRED. -/
  | sliceRetired (slice : Nat)
  /-- LBIST_SLICE_START (R306): The firmware starts a periodic logic BIST slice on an eligible idle core. -/
  | lbistSliceStart (core : Nat) (clock : Bool)
  /-- LBIST_SLICE_COMPLETE (R309): A BIST slice ends; its MISR is compared, rerun on mismatch, and the core is reset and cleared. -/
  | lbistSliceComplete (core : Nat) (ok : Bool)
  /-- DATA_FLIT (R320): A DATA flit is received and accepted in SEQ order, or discarded with a NAK. -/
  | dataFlit (port : Nat) (raw : List Byte)
  /-- IDLE_FLIT (R325): An IDLE flit is received and its ACK and returned credits are applied. -/
  | idleFlit (port : Nat) (h : FlitHdr)
  /-- NAK (R320): A NAK is received and the transmitter resends from the named SEQ. -/
  | nak (port : Nat) (h : FlitHdr) (seq : Nat)
  /-- NAK_REPEAT (R320): Every 64 flit times the receiver repeats its NAK until the expected SEQ arrives. -/
  | nakRepeat (port : Nat)
  /-- REPLAY_TIMEOUT (R320): No ACK advances for 512 ns, so the transmitter resends from its oldest unacknowledged flit. -/
  | replayTimeout (port : Nat)
  /-- KEEPALIVE (R344): A KEEPALIVE flit is received and its fingerprint compared, entering or clearing MISMATCH. -/
  | keepalive (port : Nat) (h : FlitHdr) (k : KeepFlit)
  /-- KEEPALIVE_SEND (R343): At each beat whose low 12 bits equal 0x800 a KEEPALIVE flit is sent on each active port. -/
  | keepaliveSend
  /-- KEEPALIVE_LOST (R345): No valid keepalive arrives for 12,288 beats, so the port logs code 0x6C and retrains. -/
  | keepaliveLost (port : Nat)
  /-- IDENT (R339): An IDENT flit is received during IDENTIFY and checked; a REJECT sends the port DOWN at once. -/
  | ident (port : Nat) (flit : IdentFlit)
  /-- ECHO (R340): An ECHO flit is returned or received for the one-way latency measurement. -/
  | echo (port : Nat) (own : Bool) (cycles hold : Nat)
  /-- WIDTH (R323): A WIDTH flit naming the new mask is received, and the port resumes at the new width with a replay. -/
  | width (port : Nat) (h : FlitHdr) (mask : Nat)
  /-- FAR_END_DETECT (R339): A DOWN port sees the far end's detect pattern and starts full training. -/
  | farEndDetect (port : Nat)
  /-- DETECT_DONE (R339): The DETECT step finds enough lanes and training moves to EQUALISE. -/
  | detectDone (port lanes : Nat)
  /-- EQUALISE_DONE (R339): Equalisation adapts on enough lanes and training moves to LOCK. -/
  | equaliseDone (port lanes : Nat)
  /-- LOCK_DONE (R339): Symbol lock and deskew complete on at least 4 lanes and training moves to IDENTIFY. -/
  | lockDone (port lanes : Nat)
  /-- IDENTIFY_DONE (R339): Both identity verdicts pass within the limit and the port goes ACTIVE. -/
  | identifyDone (port lanes expect : Nat)
  /-- TRAINING_STEP_TIMEOUT (R339): A training step exceeds its limit and the port goes DOWN with its code. -/
  | trainingStepTimeout (port : Nat)
  /-- TRAINING_RETRY (R339): Every 2^25 beats a DOWN port tries full training again. -/
  | trainingRetry (port : Nat)
  /-- LOSS_OF_LOCK (R506): A port loses lock until fewer than 4 lanes are usable, and it starts a retrain at once. -/
  | lossOfLock (port lanes : Nat)
  /-- RETRAIN (R339): A write of 1 to FJL_CTRL.RETRAIN starts a retrain of LOCK and IDENTIFY. -/
  | retrain (v : Via) (port laneOff : Nat)
  /-- LANE_OFF_WRITE (R324): A write to FJL_CTRL.LANE_OFF starts a width change, unless it would leave fewer than 4 lanes. -/
  | laneOffWrite (v : Via) (port laneOff : Nat)
  /-- MESSAGE_FORWARD (R332): A message addressed to another package is routed onward in dimension order, or answered with ERROR. -/
  | messageForward (port : Nat) (bytes : List Byte)
  /-- PARITY_NAK (R329): A PARITY_NAK is received and the source resends the message once, or fails on a second failure. -/
  | parityNak (v : Via) (dunit mtype : Nat)
  /-- ERROR (R334): An ERROR message is received and a requesting core raises its code as a fault. -/
  | errorMsg (v : Via) (dunit code mtype : Nat)
  /-- RESPONSE_TIMEOUT (R338): A class 1 request gets no response within 65,536 beats and times out with code 0x67. -/
  | responseTimeout (unit tag : Nat)
  /-- RUN (R358): A RUN command message is checked, given an acceptance number, journaled and mirrored. -/
  | runCmd (v : Via) (m : List Byte)
  /-- GROUP (R367): A GROUP command message with its schedule is checked and accepted like RUN. -/
  | groupCmd (v : Via) (m : List Byte)
  /-- PREEMPT (R377): A pre-emption message stops or delays a named command. -/
  | preempt (v : Via) (m : List Byte)
  /-- RESUME (R378): A message that reruns a HELD command. -/
  | resume (v : Via) (m : List Byte)
  /-- JOB_END (R378): A message that ends a job, optionally discarding its pending commands, and frees its context. -/
  | jobEnd (v : Via) (m : List Byte)
  /-- MIRROR (R358): A partner receives a journal record and writes it to its copy, or refuses a late decision mirror. -/
  | mirror (v : Via) (r : JRec)
  /-- MIRROR_ACK (R358): The partner acknowledges a mirrored record; the pending ACCEPT, commit or decision proceeds. -/
  | mirrorAck (v : Via) (accepted : Bool)
  /-- MIRROR_RETRY (R358): An unacknowledged mirror is resent every 65,536 beats. -/
  | mirrorRetry (tag : Nat)
  /-- COMMAND_START (R353): The partition starts its next command, allocating staging and beginning to load the cores. -/
  | commandStart (part : Nat)
  /-- CLEARING_COMPLETE (R111): A core's clearing of the Skillet and operand buffers between jobs ends and the program load begins. -/
  | clearingComplete (core : Nat)
  /-- PROGRAM_LOADED (R71): The program image and parameter block are placed, and the core enters RUNNING or WAITING_START. -/
  | programLoaded (core : Nat)
  /-- LOCAL_COMMIT (R365): All cores have ended a RUN command, so a COMMIT record is written and mirrored before the flips. -/
  | localCommit (a : Nat)
  /-- VOTE (R373): A VOTE is received; it is combined toward the coordinator, decided on, or answered as a QUERY. -/
  | vote (v : Via) (vote : Vote)
  /-- VOTE_TIMEOUT (R373): The coordinator reaches C + 256 without every COMMIT vote and decides ABORT. -/
  | voteTimeout (a : Nat)
  /-- COMMIT_MIRROR_TIMEOUT (R373): The coordinator reaches D − 192 with no mirror acknowledgement and decides ABORT with code 0x4F. -/
  | commitMirrorTimeout (a : Nat)
  /-- DECISION (R375): A DECISION is received and forwarded, then applied as abort, fail or commit. -/
  | decision (v : Via) (d : Decision) (arr : Option Arrival)
  /-- DECISION_BEAT (R375): Beat D is reached, so the participant flips its outputs and sends COMPLETE. -/
  | decisionBeat (a : Nat)
  /-- RERUN_START (R375): The restart beat of an aborted group is reached and the rerun loads with a new epoch. -/
  | rerunStart (a : Nat)
  /-- IN_DOUBT (R376): A participant lacks a decision past its limit and becomes IN_DOUBT. -/
  | inDoubt (a : Nat)
  /-- IN_DOUBT_QUERY (R376): Every 4,096 beats an IN_DOUBT participant sends VOTE QUERY. -/
  | inDoubtQuery (a : Nat)
  /-- JOURNAL_REPLAY (R361): After a reset the journal is rebuilt, and unresolved commands are completed, resolved or rerun. -/
  | journalReplay (copy : List JRec) (keep : Nat)
  /-- PAIR (R383): A pairing exchange is received and decided under Table 13.1. -/
  | pair (v : Via) (pkg feed partner slotGib : Nat)
  /-- PAIR_RETRY (R383): Every 2^25 beats PAIR is resent while the partner is unreachable. -/
  | pairRetry
  /-- FREEZE (R390): A due secure reaches a commit point; the image is frozen and its extents are held. -/
  | freeze (part : Nat)
  /-- SLOT_WRITE (R392): The partner stores one 4 KiB page of an image and hashes each chunk. -/
  | slotWrite (v : Via) (part slot page gen : Nat) (data : List Byte)
  /-- SEAL (R393): The partner verifies an image and writes its seal, or answers code 0x79. -/
  | seal (v : Via) (what part slot : Nat) (bytes : List Byte)
  /-- SLOT_ACK (R392): The owner receives a partner acknowledgement and advances the secure through its pointers to completion. -/
  | slotAck (v : Via) (code sub : Nat) (slots : List (Nat × Nat × Nat)) (o : GranOutcome)
  /-- NVME_COMPLETION (R399): An NVMe completion for a flash copy arrives and the flash write order advances or is abandoned. -/
  | nvmeCompletion (ok : Bool) (o : GranOutcome)
  /-- LID_STORE_ACK (R401): The host writes LID_STORE_ACK after copying a store image, which clears STORE_WAIT. -/
  | lidStoreAck (v : Via) (part gen : Nat)
  /-- RISK_DECAY (R403): Every DECAY × 65,536 beats the risk estimate loses one eighth of its value. -/
  | riskDecay
  /-- RESTORE (R408): A write of GO to LID_RESTORE_CTRL holds the partition and starts reading an image. -/
  | restore (v : Via) (source part : Nat)
  /-- RESTORATION_COMPLETE (R408): The image has been read and checked; objects and commands are re-established and the partition is IDLE. -/
  | restorationComplete (part : Nat) (ok : Bool)
  /-- RAIL_WARNING (R417): A rail stays in its warning band for 200 ns, raising event 0x80 and ALERT_N. -/
  | railWarning (rail : Nat)
  /-- BROWN_HOLD_ENTER (R418): At the next beat edge the affected dies enter BROWN_HOLD and stop beginning work. -/
  | brownHoldEnter
  /-- RAIL_RECOVERED (R414): A rail holds at or above −3% of target for 1 µs. -/
  | railRecovered (rail : Nat)
  /-- BROWN_HOLD_CLEARED (R420): A die whose causing rails recovered within 2 ms returns to ACTIVE at the next beat edge. -/
  | brownHoldCleared (die : Nat)
  /-- DEGRADED_HOLD (R421): A die in brown-hold reaches 2 ms unrecovered and enters DEGRADED_HOLD, aborting its commands. -/
  | degradedHold (die : Nat)
  /-- RAIL_BELOW_RESET (R422): A rail falls below its reset threshold and starts the reset of Table 14.2. -/
  | railBelowReset (rail : Nat)
  /-- GOVERNOR_PERIOD (R424): Every 256 beats the power governor compares power with the cap and adjusts the ME duty. -/
  | governorPeriod (watts : Nat) (volts : List Nat)
  /-- HOST_MODE_WRITE (R423): A write to PWR_CAP.HOST_MODE changes the cap at the next governor period. -/
  | hostModeWrite (v : Via) (mode : Nat)
  /-- THERMAL_PERIOD (R426): Every 256 beats a die's thermal duty is adjusted against T_WARN + 5 °C. -/
  | thermalPeriod (die temp : Nat)
  /-- THERMAL_WARNING (R426): A die's highest reading crosses T_WARN, raising event 0x83 and ALERT_N. -/
  | thermalWarning (die temp : Nat)
  /-- THERMAL_TRIP (R426): A sensor reaches 115 °C, asserting THERMTRIP_N and resetting the package. -/
  | thermalTrip (die temp : Nat)
  /-- CORE_RESET (R429): A host request resets an idle core, or is refused with code 0x1F. -/
  | coreReset (v : Via) (core : Nat)
  /-- REGION_RESET (R429): A host request resets an idle region, or is refused with code 0x1F. -/
  | regionReset (v : Via) (region : Nat)
  /-- DIE_RESET (R429): A host request resets an idle die, or is refused with code 0x1F. -/
  | dieReset (v : Via) (die : Nat)
  /-- BLOCK_RESET_COMPLETE (R428): A core, region or die reset finishes and the block returns to service. -/
  | blockResetComplete (block : BlockReset)
  /-- PACKAGE_RESET (R433): A package reset begins; engines stop and memories enter self-refresh before the dies reset. -/
  | packageReset (powerOn : Bool) (ns : Nat) (taken : Bool)
  /-- RESET_RELEASE (R435): RST_N is released; the straps are sampled and the H-die boot ROM starts. -/
  | resetRelease (boot clk feed slot : Nat) (keep : Bool)
  /-- FW_WATCHDOG (R428): The management-firmware watchdog runs 2^25 beats without service and resets the package. -/
  | fwWatchdog
  /-- BOOT_STEP_DONE (R438): A boot step completes and the next begins, ending with READY and EVENT 0x89. -/
  | bootStepDone (info : BootInfo)
  /-- BOOT_RETRY (R439): A stopped boot retries the same source every 2^25 beats. -/
  | bootRetry
  /-- CFG_STAGE (R444): A write of GO to CFG_STAGE_CTRL checks a configuration record, which is refused or written to flash. -/
  | cfgStage (v : Via) (length : Nat)
  /-- CFG_STAGE_WRITTEN (R444): A checked record is written to the configuration flash and becomes STAGED. -/
  | cfgStageWritten
  /-- ACTIVATION_ANNOUNCE (R445): A write to CFG_ACT_GEN announces an activation beat and generation. -/
  | activationAnnounce (v : Via) (gen : Word)
  /-- CFG_ACTIVATED (R446): The activation beat is reached; the staged record is activated, or the package becomes CONFIG_STALE. -/
  | cfgActivated
  /-- FW_STAGE (R457): Firmware operation STAGE reads an image from the host into the inactive slot. -/
  | fwStage (v : Via)
  /-- FW_STAGE_COMPLETE (R457): The staged image has been written and checked, so the slot becomes VALID or INVALID. -/
  | fwStageComplete (flashOk : Bool)
  /-- FW_ACTIVATE (R457): Firmware operation ACTIVATE points to the inactive slot with TRIAL set. -/
  | fwActivate (v : Via)
  /-- ARB_COMMIT (R457): Firmware operation that blows anti-rollback fuses and optionally revokes the other key. -/
  | arbCommit (v : Via)
  /-- ATTEST_REQUEST (R461): A write of GO to CFG_ATT_CTRL captures a report at one beat edge, or is refused. -/
  | attestRequest (v : Via) (core : Nat) (tables : Bool) (nobj : Nat)
  /-- ATTEST_DONE (R463): The report's digests and signature are complete and it becomes readable. -/
  | attestDone
  /-- SIDEBAND_WRITE (R482): An I3C private write sets the offset; a write to any offset other than 0x61 is ignored. -/
  | sidebandWrite (addr off : Nat) (data : List Byte)
  /-- SIDEBAND_READ (R482): An I3C private read returns bytes from the offset and advances it. -/
  | sidebandRead (addr n : Nat)
  /-- TRAY_MODE_WRITE (R483): A sideband write to offset 0x61 sets TRAY_MODE. -/
  | trayModeWrite (addr value : Nat)
  /-- SETDASA (R481): An I3C command that assigns the target a dynamic address. -/
  | setdasa (static dynamic : Nat)
  /-- HLT_CLR (R486): A write of GO to HLT_CLR queues a counter-bank clear, or is refused. -/
  | hltClr (v : Via) (bank target : Nat)
  /-- COUNTER_CLEAR (R486): The clear's beat edge is reached and the bank's counters read 0. -/
  | counterClear (bank target : Nat)
  /-- NOT_BEFORE_REACHED (R56): Beat SEQ_BEAT_BASE + o is reached, so an instruction held at the head of its queue by a nonzero not-before offset begins, and dispatch resumes if it was a sequencer instruction. -/
  | notBeforeReached (core q : Nat)
  /-- LEVEL_GAIN (R206): At every beat edge each enabled regulator bucket gains RATE bytes up to BURST × 2,048, so a granule waiting on the regulator can issue. -/
  | levelGain (core : Nat)
  /-- KILLED (R377): At the next beat edge after a pre-emption, an abort or fail vote, or an ABORT decision, the command's cores stop with code 0x42 and enter ABORTING. -/
  | killed (a : Nat)
  /-- STAGED_COPY_COMPLETE (R362): The Tongs finishes copying the current version of each OUT_COPY object into its staged version, after which the cores' programs are loaded. -/
  | stagedCopyComplete (a h : Nat) (rereads : List Nat) (o : GranOutcome)
  /-- PCIE_PORT_RETRAINED (R422): The PCIe root port finishes training after its reset by VDD_PCIE, and FLASH_OK returns to 1. -/
  | pciePortRetrained (width rate : Nat) (flashOk : Bool)
  /-- FW_OPERATION_COMPLETE (R457): A running ACTIVATE or ARB_COMMIT finishes its pointer or fuse writes and CFG_FW_STATUS.BUSY clears. -/
  | fwOperationComplete
deriving DecidableEq, Repr, Inhabited

end Sys2Proof
end

