-- ==== Sys2Proof/Decode.lean ====
section
/-!
DEFINITION. The decoder of table words. The manual gives the operations of this block no bits (every row of the table
of operations has an empty list of fields), so no word spells a command.
-/

namespace Sys2Proof

/-- The command that a table word spells: none, since no row has bits. -/
def decodeTableWord (_nbits _w : Nat) : Option Instr := none

end Sys2Proof
end

