-- ==== Sys2Proof/Machine/Numbers.lean ====
section
/-!
DEFINITION. The number formats of the engines: exact values, decoding, rounding and conversion (R169 to R179, Tables
5.2, 6.2 and 6.3). The bit layouts of the OCP formats and of the IEEE formats are those of their standards (PRESUMED,
assumption 29).
-/

namespace Sys2Proof.Machine

open Sys2Proof

/-- An exact value: (−1)^neg · m · 2^e, an infinity, or NaN. -/
inductive FVal where
  | nan
  | inf (neg : Bool)
  | fin (neg : Bool) (m : Nat) (e : Int)
deriving DecidableEq, Repr, Inhabited

/-- +0. -/
def FVal.zero : FVal := .fin false 0 0

/-- An exact integer. -/
def FVal.ofInt (i : Int) : FVal := .fin (decide (i < 0)) i.natAbs 0

/-- Sign of a value; NaN has none. -/
def FVal.sign : FVal → Bool
  | .nan => false
  | .inf n => n
  | .fin n _ _ => n

/-- The value is NaN or an infinity. -/
def FVal.special : FVal → Bool
  | .fin .. => false
  | _ => true

/-- The value is zero of either sign. -/
def FVal.isZero : FVal → Bool
  | .fin _ m _ => m == 0
  | _ => false

/-- The value negated. -/
def FVal.neg : FVal → FVal
  | .nan => .nan
  | .inf n => .inf (!n)
  | .fin n m e => .fin (!n) m e

/-- The magnitude. -/
def FVal.abs : FVal → FVal
  | .nan => .nan
  | .inf _ => .inf false
  | .fin _ m e => .fin false m e

/-- The value times 2^k, exactly. -/
def FVal.scale (v : FVal) (k : Int) : FVal :=
  match v with
  | .fin n m e => .fin n m (e + k)
  | v => v

/-- Signed numerator of a finite value over 2^e. -/
def signedAt (neg : Bool) (m : Nat) (e unit : Int) : Int :=
  let x : Int := (m : Int) * 2 ^ (e - unit).toNat
  if neg then -x else x

/-- The exact sum (R171): an exact zero sum is +0, unless both terms are −0 or RND rounds toward −∞. -/
def FVal.add (rnd : Nat) : FVal → FVal → FVal
  | .nan, _ => .nan
  | _, .nan => .nan
  | .inf a, .inf b => if a = b then .inf a else .nan
  | .inf a, _ => .inf a
  | _, .inf b => .inf b
  | .fin na ma ea, .fin nb mb eb =>
    let e := min ea eb
    let x := signedAt na ma ea e + signedAt nb mb eb e
    if x = 0 then .fin ((ma == 0 && mb == 0 && na && nb) || rnd == 3) 0 0
    else .fin (decide (x < 0)) x.natAbs e

/-- The exact product. -/
def FVal.mul : FVal → FVal → FVal
  | .nan, _ => .nan
  | _, .nan => .nan
  | .inf a, .inf b => .inf (a != b)
  | .inf a, .fin nb mb _ => if mb = 0 then .nan else .inf (a != nb)
  | .fin na ma _, .inf b => if ma = 0 then .nan else .inf (na != b)
  | .fin na ma ea, .fin nb mb eb => .fin (na != nb) (ma * mb) (ea + eb)

/-- Numeric order of two values that are not NaN; −0 equals +0. -/
def FVal.lt : FVal → FVal → Bool
  | .nan, _ => false
  | _, .nan => false
  | .inf a, .inf b => a && !b
  | .inf a, .fin .. => a
  | .fin .., .inf b => !b
  | .fin na ma ea, .fin nb mb eb =>
    let e := min ea eb
    decide (signedAt na ma ea e < signedAt nb mb eb e)

/-- Numeric equality; NaN equals nothing. -/
def FVal.eqv (a b : FVal) : Bool := a != .nan && b != .nan && !a.lt b && !b.lt a

/-- MIN: NaN propagates, −0 lies below +0 (R171). -/
def FVal.min (a b : FVal) : FVal :=
  if a = .nan ∨ b = .nan then .nan
  else if a.lt b then a else if b.lt a then b else if a.sign then a else b

/-- MAX: NaN propagates, −0 lies below +0 (R171). -/
def FVal.max (a b : FVal) : FVal :=
  if a = .nan ∨ b = .nan then .nan
  else if a.lt b then b else if b.lt a then a else if a.sign then b else a

/-- Units of 2^q nearest to m · 2^e by a rounding mode (R179): 0 nearest-even, 1 toward zero, 2 toward +∞, 3 toward
−∞, 4 stochastic with draw `r`. -/
def roundAt (rnd r : Nat) (neg : Bool) (m : Nat) (e q : Int) : Nat :=
  if q ≤ e then m * 2 ^ (e - q).toNat
  else
    let d := (q - e).toNat
    let lo := m / 2 ^ d
    let rem := m % 2 ^ d
    let up :=
      if rem = 0 then false
      else match rnd with
        | 0 => decide (2 ^ d < 2 * rem) || (2 * rem == 2 ^ d && lo % 2 == 1)
        | 1 => false
        | 2 => !neg
        | 3 => neg
        | _ => decide (65536 ≤ rem * 65536 / 2 ^ d + r)
    if up then lo + 1 else lo

/-- A floating format: exponent and fraction bits, bias, and which codes are special: 0 as IEEE 754, 1 only the
all-ones code is NaN (E4M3), 2 none. -/
structure FFmt where
  eb : Nat
  mb : Nat
  bias : Nat
  kind : Nat
deriving DecidableEq, Repr, Inhabited

def bf16 : FFmt := ⟨8, 7, 127, 0⟩
def binary16 : FFmt := ⟨5, 10, 15, 0⟩
def binary32 : FFmt := ⟨8, 23, 127, 0⟩
def binary64 : FFmt := ⟨11, 52, 1023, 0⟩
def e4m3 : FFmt := ⟨4, 3, 7, 1⟩
def e5m2 : FFmt := ⟨5, 2, 15, 0⟩
def e3m2 : FFmt := ⟨3, 2, 3, 2⟩
def e2m3 : FFmt := ⟨2, 3, 1, 2⟩
def e2m1 : FFmt := ⟨2, 1, 1, 2⟩

/-- Bits of the format. -/
def FFmt.width (f : FFmt) : Nat := 1 + f.eb + f.mb

/-- Exponent of the smallest normal value. -/
def FFmt.emin (f : FFmt) : Int := 1 - f.bias

/-- The largest finite value, as a mantissa of mb + 1 bits and the exponent of its unit. -/
def FFmt.top (f : FFmt) : Nat × Int :=
  match f.kind with
  | 0 => (2 ^ (f.mb + 1) - 1, (2 ^ f.eb - 2 : Int) - f.bias - f.mb)
  | 1 => (2 ^ (f.mb + 1) - 2, (2 ^ f.eb - 1 : Int) - f.bias - f.mb)
  | _ => (2 ^ (f.mb + 1) - 1, (2 ^ f.eb - 1 : Int) - f.bias - f.mb)

/-- The value of a code. -/
def FFmt.decode (f : FFmt) (x : Nat) : FVal :=
  let neg := bitOf x (f.eb + f.mb)
  let ex := bitsOf x (f.eb + f.mb - 1) f.mb
  let fr := x % 2 ^ f.mb
  let top := ex == 2 ^ f.eb - 1
  if f.kind = 0 ∧ top = true then (if fr = 0 then .inf neg else .nan)
  else if f.kind = 1 ∧ top = true ∧ fr = 2 ^ f.mb - 1 then .nan
  else if ex = 0 then .fin neg fr (f.emin - f.mb)
  else .fin neg (2 ^ f.mb + fr) ((ex : Int) - f.bias - f.mb)

/-- The positive canonical NaN (R175). -/
def FFmt.nanCode (f : FFmt) : Nat :=
  if f.kind = 0 then (2 ^ f.eb - 1) * 2 ^ f.mb + 2 ^ (f.mb - 1) else 2 ^ (f.eb + f.mb) - 1

/-- The code of an infinity. -/
def FFmt.infCode (f : FFmt) (neg : Bool) : Nat := b2n neg * 2 ^ (f.eb + f.mb) + (2 ^ f.eb - 1) * 2 ^ f.mb

/-- The code of `m` units of 2^q, where q is the unit that the rounding used. -/
def FFmt.code (f : FFmt) (neg : Bool) (m : Nat) (q : Int) : Nat :=
  let (m, q) := if m = 2 ^ (f.mb + 1) then (2 ^ f.mb, q + 1) else (m, q)
  b2n neg * 2 ^ (f.eb + f.mb) +
    (if m < 2 ^ f.mb then m else (q + f.mb + f.bias).toNat * 2 ^ f.mb + (m - 2 ^ f.mb))

/-- The unit of the rounding of m · 2^e in a format. -/
def FFmt.unit (f : FFmt) (m : Nat) (e : Int) : Int := max ((Nat.log2 m : Int) + e) f.emin - f.mb

/-- A converted result: the code, and what was counted of it. -/
structure Conv where
  code : Nat
  clip : Bool := false
  toInf : Bool := false
  isNan : Bool := false
deriving DecidableEq, Repr, Inhabited

/-- m units of 2^q exceed the largest finite value. -/
def FFmt.exceeds (f : FFmt) (m : Nat) (q : Int) : Bool :=
  let t := f.top
  let e := min q t.2
  decide (t.1 * 2 ^ (t.2 - e).toNat < m * 2 ^ (q - e).toNat)

/-- A value converted to a floating format (R175, Table 6.3). `mx`: an MX element, which is always clipped. -/
def FFmt.convert (f : FFmt) (rnd r : Nat) (sat mx : Bool) (v : FVal) : Conv :=
  let big := fun neg => f.code neg f.top.1 f.top.2
  match v with
  | .nan => { code := f.nanCode, isNan := true }
  | .inf neg =>
    match f.kind with
    | 0 => if sat && f == e5m2 then { code := big neg, clip := true } else { code := f.infCode neg }
    | _ => if sat || mx then { code := big neg, clip := true } else { code := f.nanCode, isNan := true }
  | .fin neg 0 _ => { code := f.code neg 0 (f.emin - f.mb) }
  | .fin neg m e =>
    let q := f.unit m e
    let k := roundAt rnd r neg m e q
    if f.exceeds k q then
      if sat || mx then { code := big neg, clip := true }
      else match f.kind with
        | 0 =>
          let toInf := match rnd with
            | 1 => false
            | 2 => !neg
            | 3 => neg
            | _ => true
          if toInf then { code := f.infCode neg, toInf := true } else { code := big neg }
        | _ => { code := f.nanCode, isNan := true }
    else { code := f.code neg k q }

/-- A value rounded nearest-even to binary32 or another floating format, as a value. -/
def FFmt.round (f : FFmt) (v : FVal) : FVal := f.decode (f.convert 0 0 false false v).code

/-- A value as an integer format (R176): the integer, saturated when asked; none is lane fault 0x43. -/
def convertInt (lo hi : Int) (rnd r : Nat) (sat : Bool) (v : FVal) : Option (Int × Bool) :=
  match v with
  | .nan => if sat then some (0, false) else none
  | .inf neg => if sat then some (if neg then lo else hi, true) else none
  | .fin neg m e =>
    let k : Int := roundAt rnd r neg m e 0
    let k := if neg then -k else k
    if lo ≤ k ∧ k ≤ hi then some (k, false)
    else if sat then some (if k < lo then lo else hi, true) else none

/-! ## Format codes (Tables 5.2 and 6.2) -/

/-- The floating format of a code, MX element formats included. -/
def floatFmt : Nat → Option FFmt
  | 0x00 => some bf16
  | 0x01 => some binary16
  | 0x02 => some e4m3
  | 0x03 => some e5m2
  | 0x04 => some e4m3
  | 0x05 => some e5m2
  | 0x06 => some e3m2
  | 0x07 => some e2m3
  | 0x08 => some e2m1
  | 0x10 => some binary32
  | 0x11 => some binary64
  | _ => none

/-- Width and signedness of the integer format of a code. -/
def intFmt : Nat → Option (Nat × Bool)
  | 0x09 => some (8, true)
  | 0x0A => some (4, true)
  | 0x13 => some (32, true)
  | 0x14 => some (16, true)
  | 0x15 => some (8, false)
  | 0x16 => some (64, true)
  | _ => none

/-- An MX format: its elements come in blocks of 32 with a scale. -/
def isMx (f : Nat) : Bool := (0x04 ≤ f && f ≤ 0x08) || f == 0x12

/-- Bits per element. -/
def fmtBits (f : Nat) : Nat :=
  match f with
  | 0x00 | 0x01 | 0x14 => 16
  | 0x08 | 0x0A => 4
  | 0x10 | 0x13 => 32
  | 0x11 | 0x16 => 64
  | _ => 8

/-- A format code that Table 6.2 defines for elements (all but the split slice). -/
def fmtOk (f : Nat) : Bool := f ≤ 0x0A || (0x10 ≤ f && f ≤ 0x16)

/-- An integer format. -/
def isInt (f : Nat) : Bool := (intFmt f).isSome

/-- The exact value of an element's code, without its scale. -/
def elemValue (f x : Nat) : FVal :=
  match floatFmt f, intFmt f with
  | some g, _ => g.decode (x % 2 ^ g.width)
  | none, some (w, true) => .ofInt (sextN w x)
  | none, some (w, false) => .ofInt ((x % 2 ^ w : Nat) : Int)
  | none, none => if f = 0x12 then (FVal.ofInt (sextN 8 x)).scale (-6) else .nan

/-- The value of an MX element under a scale byte (R178). -/
def mxValue (f x sc : Nat) : FVal := if sc = 255 then .nan else (elemValue f x).scale ((sc : Int) - 127)

/-- The exponent that the largest value of an MX element format has (R177). -/
def mxEmax (f : Nat) : Int :=
  match f with
  | 0x04 => 8
  | 0x05 => 15
  | 0x06 => 4
  | 0x07 => 2
  | 0x08 => 2
  | _ => 0

/-- A value converted to a format; none is lane fault 0x43 (R175, R176, Table 6.3). -/
def convertTo (f rnd r : Nat) (sat : Bool) (v : FVal) : Option Conv :=
  match floatFmt f, intFmt f with
  | some g, _ => some (g.convert rnd r sat (isMx f) v)
  | none, some (w, sg) =>
    let lo : Int := if sg then -(2 ^ (w - 1)) else 0
    let hi : Int := if sg then 2 ^ (w - 1) - 1 else 2 ^ w - 1
    (convertInt lo hi rnd r sat v).map fun x => { code := (x.1 % 2 ^ w).toNat, clip := x.2 }
  | none, none =>
    if f = 0x12 then
      match v with
      | .fin neg m e =>
        let k := roundAt rnd r neg m (e + 6) 0
        let c := Nat.min k 127
        some { code := (if neg then (256 - c) % 256 else c), clip := decide (127 < k) }
      | .inf neg => some { code := if neg then 129 else 127, clip := true }
      | .nan => some { code := 0 }
    else none

/-- floor(log2 v) of a positive finite value. -/
def FVal.ilog2 : FVal → Int
  | .fin _ m e => (Nat.log2 m : Int) + e
  | _ => 0

/-- The largest integer not above a finite value. -/
def FVal.floor : FVal → Int
  | .fin neg m e => signedAt neg (roundAt 3 0 neg m e 0) 0 0
  | _ => 0

/-- The integer part toward zero of a finite value. -/
def FVal.trunc : FVal → Int
  | .fin neg m e => signedAt neg (roundAt 1 0 neg m e 0) 0 0
  | _ => 0

/-- A finite value divided by a positive number, rounded nearest-even to a format: 80 more bits are formed, and a
remainder sets the last of them. -/
def FFmt.divNat (f : FFmt) (v : FVal) (d : Nat) : FVal :=
  match v with
  | .fin neg m e =>
    let x := m * 2 ^ 80
    f.round (.fin neg (x / d * 2 + b2n (x % d != 0)) (e - 81))
  | v => v

end Sys2Proof.Machine
end

