-- ==== Sys2Proof/Config.lean ====
section
/-!
DEFINITION. The values that the manual leaves open. Each is an opaque constant applied to a plain counter of the
state (State.freeCtr) or to the operands it depends on, so nothing can be proved about its value.
-/

namespace Sys2Proof.Config

open Sys2Proof

/-- Contents that the manual calls undefined or unspecified: byte `a` of the store whose contents became undefined
as occasion `k` (R110, R364). -/
opaque undefByte : Nat → Nat → Byte

/-- A choice that the manual leaves to the device, drawn as occasion `k` (R503: which entry, extents and sectors). -/
opaque pick : Nat → Nat

/-- A result that the manual does not state, as a 64-bit pattern drawn as occasion `k`. -/
opaque freeWord : Nat → Word

/-- The sectors of a 4 KiB block beyond the first, as codec version `v` codes the 4,096 bytes given as one number (R272, R273:
the codec is not part of the manual). -/
opaque pressSectors : Nat → Nat → Nat

/-- Byte `j` of the coded form of a block under codec version `v` (R273, R274: not an interface). -/
opaque pressByte : Nat → Nat → Nat → Byte

/-- What byte `l` of Stockpot slice `r` holds while no extent in use covers it, and byte `l` of a row that no bank in service
holds (R288: the manual does not say). -/
opaque stockByte : Nat → Nat → Byte

/-- Cycles that the manual leaves to the instant within a beat (bank conflicts, rereads, full links; R85, R107, R229), as
draw `k` of core `n`; for `n` from 192 on, such a number for a physical row of a slice at beat edge `k` (R290, R302). -/
opaque cycles : Nat → Nat → Nat

/-- Byte `i` of the body of a message of type `t` that says `fields`, where the manual lays the body out in no bytes (Table
11.8). -/
opaque bodyByte : Nat → List Nat → Nat → Byte

/-- The address of a staged extent map in the reserved area (Table 12.7), drawn as occasion `k`. -/
opaque mapAddr : Nat → Nat

/-- Byte `j` of an ML-DSA-44 public key or signature over a message, under the identity key of the part (R450 to R463). -/
opaque mldsaByte : Nat → List Byte → Nat → Byte

/-- The verdict of an ML-DSA-44 verification with a context (0 "PV7-BOOT"), a key, a message and a signature: FIPS 204 is
not part of the manual (R450). -/
opaque mldsaOk : Nat → List Byte → List Byte → List Byte → Bool

/-- Byte `j` of a certificate or fused identity value of the part. -/
opaque fusedByte : Nat → Nat → Byte

end Sys2Proof.Config
end

