-- ==== Sys2Proof/Machine/Mem.lean ====
section
/-!
DEFINITION. The byte store that the Skillet, the operand buffers, object contents and the partner's reserve are made
of: a sparse list of cells in one canonical form over contents that are zero or undefined.
-/

namespace Sys2Proof.Machine

open Sys2Proof

/-- A byte store. `base = none`: an unlisted byte is zero. `base = some k`: an unlisted byte is the undefined contents
of occasion `k` (R71, R110, R364: DESIGN CHOICE, a free value). -/
structure Mem where
  base : Option Nat := none
  cells : List Host.Cell := []
deriving DecidableEq, Repr, Inhabited

/-- What an unlisted address of the store reads as. -/
def Mem.unlisted (m : Mem) (a : Nat) : Byte :=
  match m.base with
  | none => 0
  | some k => Config.undefByte k a

/-- The listed byte at an address. -/
def findCell : List Host.Cell → Nat → Option Byte
  | [], _ => none
  | (a, b) :: r, x => if a = x then some b else findCell r x

/-- The byte at an address. -/
def Mem.read (m : Mem) (a : Nat) : Byte := (findCell m.cells a).getD (m.unlisted a)

/-- The cells without the one at an address. -/
def eraseCell : List Host.Cell → Nat → List Host.Cell
  | [], _ => []
  | (a, b) :: r, x => if a = x then r else (a, b) :: eraseCell r x

/-- The cells with one put in its place in rising order. -/
def insertCell : List Host.Cell → Nat → Byte → List Host.Cell
  | [], x, v => [(x, v)]
  | (a, b) :: r, x, v =>
    if x < a then (x, v) :: (a, b) :: r
    else if x = a then (x, v) :: r
    else (a, b) :: insertCell r x v

/-- One byte written, keeping the canonical form. -/
def Mem.write (m : Mem) (a : Nat) (v : Byte) : Mem :=
  if v = m.unlisted a then { m with cells := eraseCell m.cells a }
  else { m with cells := insertCell m.cells a v }

/-- `n` bytes from an address on, lowest first. -/
def Mem.readN (m : Mem) : Nat → Nat → List Byte
  | _, 0 => []
  | a, n + 1 => m.read a :: m.readN (a + 1) n

/-- Bytes written from an address on. -/
def Mem.writeN (m : Mem) : Nat → List Byte → Mem
  | _, [] => m
  | a, b :: bs => (m.write a b).writeN (a + 1) bs

/-- A little-endian number of `n` bytes. -/
def Mem.readLE (m : Mem) (a n : Nat) : Nat := ofLE (m.readN a n)

/-- A little-endian number written over `n` bytes. -/
def Mem.writeLE (m : Mem) (a n v : Nat) : Mem := m.writeN a (leBytes n v)

/-- The addresses of a cell list rise strictly. -/
def risingFrom : Nat → List Host.Cell → Bool
  | _, [] => true
  | lo, (a, _) :: r => decide (lo ≤ a) && risingFrom (a + 1) r

/-- The canonical form: addresses rise strictly and no cell equals what its address reads as unlisted. -/
def Mem.wf (m : Mem) : Bool :=
  risingFrom 0 m.cells && m.cells.all fun c => decide (c.2 ≠ m.unlisted c.1)

/-- The store with all contents zero (R111). -/
def Mem.zero : Mem := {}

/-- The store with all contents undefined, as occasion `k`. -/
def Mem.undef (k : Nat) : Mem := { base := some k }

end Sys2Proof.Machine
end

