-- ==== Sys2Proof/Machine/State.lean ====
section
/-!
DEFINITION. The state of the package as plain data: every register, store, queue, counter, mode and pin that the
manual gives it, what it has sent, and the queue of the commands that wait. Each field names the rule or register it
holds; the registers of control space are views of these fields (Machine/Control.lean).
-/

namespace Sys2Proof.Machine

open Sys2Proof

/-! ## The beat unit (R34 to R68, R500) -/

/-- Lock states of the beat unit (Table 2.2). -/
inductive LockState where
  | unlocked
  | freqLocked
  | phaseLocked
  | timeLocked
deriving DecidableEq, Repr, Inhabited

/-- A marker occasion that is being gathered (R48). -/
structure Occasion where
  edge : Nat
  value : Nat
  agree : Bool
deriving DecidableEq, Repr, Inhabited

/-- The beat unit. -/
structure BeatSt where
  /-- Beat edges since the package reset; every timer of the model counts these (R52). -/
  edge : Nat := 0
  /-- BEAT_COUNT. -/
  count : Nat := 0
  /-- Cycles that the present beat lasts (R500, R52). -/
  beatLen : Nat := 64
  /-- Cycles by which the next beat is lengthened (R500). -/
  align : Int := 0
  /-- Phase error still to be removed, in cycles (R52). -/
  slew : Int := 0
  /-- The present beat is one that slewing lengthened or shortened (R52). -/
  slewBeat : Bool := false
  lock : LockState := .unlocked
  /-- Effective clock mode: 3, 2 or 1 (Table 2.1). -/
  mode : Nat := 3
  strapRsv : Bool := false
  freeRun : Bool := false
  depth : Nat := 0
  holdover : Bool := false
  /-- BEAT_HOLD.ELAPSED. -/
  elapsed : Nat := 0
  maxSlips : Nat := 16
  root : Bool := false
  srcPort : Nat := 0
  /-- ROOT_VALID of the active system section (R42). -/
  rootValid : Bool := false
  pendingSeed : Option Nat := none
  /-- The pulse residue P (R500). -/
  residue : Nat := 0
  /-- Edge number and phase of the last pulse or marker in FREQ_LOCKED (Table 2.3). -/
  prevPulse : Option (Nat × Int) := none
  /-- Consecutive pulses ignored (R50). -/
  ignoredRun : Nat := 0
  /-- Edge of the last pulse within its window (R50, R52). -/
  lastGood : Option Nat := none
  occ : Option Occasion := none
  /-- The value of a second occasion whose markers agree so far, and the pulse edge that it is timed on: it is adopted as the
  beat of its marker ends (R48). -/
  adoptDue : Option (Nat × Nat) := none
  /-- The system count, while the local count is held (R53). -/
  sysCount : Option Nat := none
  /-- Edge at which the PLL last locked (R42). -/
  lockEdge : Nat := 0
  markerSeen : Bool := false
  noRootLogged : Bool := false
  /-- Edge at which this package last sent its markers (R341). -/
  markerSent : Option Nat := none
  /-- BEAT_CNT_k. -/
  cnt : Vector Nat 32 := Vector.replicate 32 0
deriving DecidableEq, Repr, Inhabited

/-! ## Log, events and clears (R485 to R499) -/

/-- A counter clear that waits for its edge (R486, R487). -/
structure ClearReq where
  bank : Nat
  target : Nat
  /-- The beat that it waits for, or none for the beat edge after the write; and the edge of the write. -/
  at_ : Option Nat
  edge : Nat
deriving DecidableEq, Repr, Inhabited

/-- The log ring and the event registers. -/
structure LogSt where
  /-- The records of the ring, newest first. -/
  ring : List LogRec := []
  /-- HLT_LOG_NEXT. -/
  next : Nat := 0
  overwritten : Nat := 0
  suppressed : Nat := 0
  /-- HLT_LOG_CTRL.LIMIT. -/
  limit : Nat := 256
  /-- Number of the 65,536-beat interval that `written` counts (R495). -/
  interval : Nat := 0
  /-- Records written in the interval, by code. -/
  written : List (Nat × Nat) := []
  /-- Codes with a record suppressed since the last one written. -/
  hidden : List Nat := []
  /-- HLT_EVT_MASK_i. -/
  mask : Vector Word 4 := #v[0x0000FFFF00000000, 0xFFFFFFFF00000000, 0x000000000000FFFF, 0]
  /-- HLT_CODE_CNT_c. -/
  codeCnt : Vector Nat 256 := Vector.replicate 256 0
  /-- HLT_CLR_AT. -/
  clrAt : Word := 0
  clears : List ClearReq := []
  /-- HLT_CLR_LAST. -/
  clrLast : Nat := 0
deriving DecidableEq, Repr, Inhabited

/-! ## The core: sequencer, queues, windows (R69 to R133) -/

/-- Sequencer states (Table 3.13). -/
inductive CoreState where
  | idle
  | loading
  | waitingStart
  | running
  | draining
  | aborting
deriving DecidableEq, Repr, Inhabited

/-- Race slot states (Table 3.1). -/
inductive RaceState where
  | free
  | pending
  | won
  | lost
deriving DecidableEq, Repr, Inhabited

/-- A race slot (R87). -/
structure RaceSlot where
  st : RaceState := .free
  /-- The alternate address. -/
  alt : Nat := 0
  /-- The deadline offset DL. -/
  dl : Nat := 0
  stok : Nat := 0
  sval : Nat := 0
deriving DecidableEq, Repr, Inhabited

/-- A token signal of a completed instruction, for the next cycle (R81, R82): the counter, the amount, and the queue code
and address of the instruction. -/
structure TokSig where
  tk : Nat
  amount : Nat
  q : Nat
  pc : Nat
deriving DecidableEq, Repr, Inhabited

/-- An instruction on its way through the core: queue code, opcode, header, body, address, and the general registers
read at dispatch (R77). -/
structure Entry where
  q : Nat
  op : Nat
  h : Hdr
  b : Word
  pc : Nat
  /-- Predicate 0: a null entry (R78). -/
  null : Bool
  regs : Vector Word 32 := Vector.replicate 32 0
  /-- The race slot whose fetch this is (R87). -/
  race : Option Nat := none
deriving DecidableEq, Repr, Inhabited

/-- An instruction in execution in an in-order engine (ME, VE, Exchange). -/
structure Flight where
  e : Entry
  /-- It waits only for its turn to complete. -/
  done : Bool := false
  /-- MMUL: K-vectors that have still to enter the array (R150). -/
  left : Nat := 0
  /-- Exchange: the tags of the messages whose answers it waits for. -/
  tags : List Nat := []
  /-- Skillet ranges that it writes (R166): address and length. -/
  writes : List (Nat × Nat) := []
  /-- COMPRESS and EXPAND: the token set on completion, and its value (R183). -/
  setTok : Option (Nat × Nat) := none
deriving DecidableEq, Repr, Inhabited

/-- A receive window slot (R120, R122). -/
structure Window where
  isOpen : Bool := false
  mode : Bool := false
  tk : Nat := 0
  epoch : Nat := 0
  base : Nat := 0
  length : Nat := 0
deriving DecidableEq, Repr, Inhabited

/-- A credit outstanding on a window of this core (R127, R128). -/
structure OwnCredit where
  tag : Nat
  win : Nat
  pkg : Nat
  core : Nat
  offset : Nat
  length : Nat
  written : Nat := 0
  tk : Nat := 0
  accepted : Bool := false
  /-- The sender answered FULL; the credit is resent each beat (R127). -/
  full : Bool := false
  /-- Edges of the first and of the last send (R127, R338). -/
  sentEdge : Nat := 0
  lastEdge : Nat := 0
  tries : Nat := 1
deriving DecidableEq, Repr, Inhabited

/-- A credit held by this core as a sender (R127, R129). -/
structure HeldCredit where
  pkg : Nat
  core : Nat
  win : Nat
  offset : Nat
  length : Nat
  used : Nat := 0
deriving DecidableEq, Repr, Inhabited

/-- An arrival sent and not yet acknowledged (R124). -/
structure SentPut where
  tag : Nat
  pkg : Nat
  core : Nat
  src : Nat
  offset : Nat
  win : Nat
  mode : Bool
  length : Nat
  index : Nat
  pc : Nat
  sentEdge : Nat
  /-- Times sent: 2 after a PARITY_NAK (R329). -/
  tries : Nat := 1
deriving DecidableEq, Repr, Inhabited

/-! ## Versions of objects (R246, R250, R272) -/

/-- The block-map entry of a block of a Press-coded version that occupies sectors (R272): the block's number in the object,
SECTORS, the index of its first sector in the pool of its tier, and the codec version that coded it (R273). -/
structure Block where
  no : Nat
  sectors : Nat
  first : Nat
  codec : Nat
deriving DecidableEq, Repr, Inhabited

/-- One version of an object: its tier and codec, its extents, what is charged for it, and its bytes. -/
structure Version where
  tier : Nat
  press : Bool
  place : Nat
  /-- WHERE of each extent (Table 9.3). -/
  wheres : List Nat
  charge : Nat
  mapAddr : Nat
  hostAddr : Nat
  /-- A RAW version of the host tier whose extents were drawn from the host pool (staging, R362). -/
  pooled : Bool := false
  /-- The block maps of a Press-coded version: a block that is not listed occupies 0 sectors. -/
  blocks : List Block := []
  content : Mem
deriving DecidableEq, Repr, Inhabited

/-! ## Ladle, Colander and Whisk (R196 to R232) -/

/-- A stream descriptor (Tables 7.1 and 7.2). -/
structure Desc where
  handle : Nat
  dir : Bool
  ndim : Nat
  whisk : Nat
  watch : Bool
  ra : Bool
  sig : Bool
  stok : Nat
  sval : Nat
  msig : Bool
  mtok : Nat
  offset : Nat
  skl : Nat
  len0 : Nat
  n1 : Nat
  n2 : Nat
  n3 : Nat
  ts1 : Int
  ts2 : Int
  ts3 : Int
  ss1 : Int
  ss2 : Int
  ss3 : Int
deriving DecidableEq, Repr, Inhabited

/-- What kind of transfer a granule is. -/
inductive GranKind where
  | fetch
  | store
  | whisk
  | gather
  | scatter
  | load
deriving DecidableEq, Repr, Inhabited

/-- One piece of a granule: where it lies in the object and in the Skillet. -/
structure Piece where
  obj : Nat
  skl : Nat
  len : Nat
deriving DecidableEq, Repr, Inhabited

/-- A granule: it holds a transfer tag from its issue to its delivery or acceptance (R202). -/
structure Granule where
  kind : GranKind
  /-- The XFER or Colander instruction that it belongs to. -/
  xfer : Nat
  /-- The descriptor in the batch. -/
  desc : Nat
  handle : Nat
  pieces : List Piece
  /-- The first object byte and the span read or written. -/
  obj : Nat
  span : Nat
  tier : Nat
  /-- Stockpot slice of the target; 16 for another tier. -/
  slice : Nat
  /-- The data read when the granule was served, or to be stored; with the first object byte of each run. -/
  data : List (Nat × List Byte)
  /-- The object reads the staged version (Table 12.8). -/
  staged : Bool
  /-- The version that it was translated to, its bytes apart: tier, codec, extents and block maps (R259). -/
  home : Version := default
  /-- It was translated to extents that a move has since left (R259): the release that waits for it. -/
  release : Option Nat := none
  /-- Read, and then written by another granule (R210). -/
  stale : Bool := false
  /-- Times this granule became stale. -/
  staleCount : Nat := 0
  elements : Nat := 0
  /-- Host I/O page requested: outstanding HOST_READ or HOST_WRITE tags. -/
  hostTags : List Nat := []
  /-- Held at a slice of a die in brown-hold (Table 1.6). -/
  held : Bool := false
  /-- The segment whose reconstruction it waits for: slice, physical bank and row, segment (R291); or it waits for a
  retransmission or a far-memory reread (R296). -/
  recon : Option (Nat × Nat × Nat × Nat) := none
  /-- Stockpot slices that it reads; a Whisk tile can read several. -/
  slices : List Nat := []
  replay : Bool := false
deriving DecidableEq, Repr, Inhabited

/-- A transfer tag: its epoch, and the granule that holds it with the epoch at its issue (R202, R203). -/
structure TagSt where
  epoch : Nat := 0
  g : Option (Nat × Granule) := none
  /-- The Colander holds it. -/
  col : Bool := false
  /-- Its epoch was advanced by a race cancellation (SEQ_CNT_4, not LDL_CNT_13). -/
  cancelled : Bool := false
deriving DecidableEq, Repr, Inhabited

/-- A descriptor of a batch that has been read (R200, R201). -/
structure DescSt where
  idx : Nat
  d : Desc
  /-- Next run, and next byte of it, to issue. -/
  run : Nat := 0
  pos : Nat := 0
  issued : Bool := false
  outstanding : Nat := 0
  /-- Granules dropped under R217. -/
  dropped : Nat := 0
  /-- Granules to issue again (R210). -/
  again : List Granule := []
  /-- Watched granules that have landed. -/
  landed : List Granule := []
  watching : Bool := false
  /-- Closes sent and not acknowledged, and a granule became stale meanwhile (R211). -/
  closes : Nat := 0
  closing : Bool := false
deriving DecidableEq, Repr, Inhabited

/-- An XFER that has begun and not completed (R201). -/
structure XferSt where
  id : Nat
  e : Entry
  base : Nat
  count : Nat
  /-- Next descriptor to read. -/
  nextDesc : Nat := 0
  descs : List DescSt := []
  doneDescs : Nat := 0
  /-- Its race is WON while a watch of it is still open (R88, R211). -/
  won : Bool := false
  /-- It is the read of the program image (R72). -/
  prog : Bool := false
deriving DecidableEq, Repr, Inhabited

/-- A GATHER or SCATTER that has begun and not completed (R226). -/
structure ColSt where
  id : Nat
  e : Entry
  handle : Nat
  base : Nat
  idxAddr : Nat
  count : Nat
  skl : Nat
  stride : Nat
  mask : Option Nat
  esz : Nat
  /-- Next entry to look at. -/
  pos : Nat := 0
  outstanding : Nat := 0
deriving DecidableEq, Repr, Inhabited

/-- A regulator bucket (LDL_REG_t), with the write that waits for the next beat edge (R207). -/
structure Bucket where
  enable : Bool := false
  rate : Nat := 0
  burst : Nat := 1
  level : Nat := 2048
  pending : Option (Bool × Nat × Nat) := none
deriving DecidableEq, Repr, Inhabited

/-- The stream and gather engines of a core. -/
structure StreamSt where
  tags : Vector TagSt 64 := Vector.replicate 64 {}
  /-- The engine that received the last freed tag was the Colander (R202). -/
  lastCol : Bool := false
  xfers : List XferSt := []
  cols : List ColSt := []
  nextId : Nat := 0
  /-- Whisk granules whose pieces have landed, in that order (R221). -/
  whiskQ : List Nat := []
  buckets : Vector Bucket 3 := Vector.replicate 3 {}
  ldlCnt : Vector Nat 16 := Vector.replicate 16 0
  colCnt : Vector Nat 16 := Vector.replicate 16 0
deriving DecidableEq, Repr, Inhabited

/-! ## The matrix engine (R134 to R160) -/

/-- State of a stationary set (R144). -/
inductive SetState where
  | empty
  | loading
  | loaded
deriving DecidableEq, Repr, Inhabited

/-- A stationary set: its state, format, extent, and the bytes of its tile and scales as SLOAD read them. -/
structure StatSet where
  st : SetState := .empty
  fmt : Nat := 0
  kblk : Nat := 0
  tile : List Byte := []
  scales : List Byte := []
deriving DecidableEq, Repr, Inhabited

/-- The matrix engine. Buffer word (r, c) is the two bytes at 2 (256 c + r) of its store (R113); ACC row r, column n is
the four bytes at 128 r + 4 n (R117); scale byte b of entry c is at 32 c + b (R149). -/
structure MeSt where
  /-- 0 FULL, 1 HALF, 2 QUARTER. -/
  shape : Nat := 0
  active : Vector StatSet 4 := Vector.replicate 4 {}
  shadow : Vector StatSet 4 := Vector.replicate 4 {}
  buf : Vector Mem 2 := Vector.replicate 2 {}
  scale : Vector Mem 2 := Vector.replicate 2 {}
  acc : Mem := {}
  cnt : Vector Nat 16 := Vector.replicate 16 0
deriving DecidableEq, Repr, Inhabited

/-! ## The vector engine (R161 to R195) -/

/-- A function-table slot: 0 EMPTY, 1 LOADING, 2 LOADED, with the table's header and records as loaded (R184). -/
structure FtSlot where
  st : Nat := 0
  bytes : List Byte := []
deriving DecidableEq, Repr, Inhabited

/-- The vector engine. -/
structure VeSt where
  slots : Vector FtSlot 8 := Vector.replicate 8 {}
  /-- S of VE_SEED, and the generator state of every lane (R180). -/
  seed : Word := 0
  lanes : Vector Nat 256 := Vector.replicate 256 0
  cnt : Vector Nat 16 := Vector.replicate 16 0
deriving DecidableEq, Repr, Inhabited

/-! ## A core -/

/-- The program and parameters on their way to a core (R71, R72). -/
structure Loading where
  acceptNo : Nat
  /-- The Skillet is being cleared (R111). -/
  clearing : Bool
  /-- The read of the image has begun. -/
  started : Bool := false
deriving DecidableEq, Repr, Inhabited

/-- One core: sequencer, engines, Skillet, windows and counters (Table 3.1, R104 to R133, R489). -/
structure CoreSt where
  st : CoreState := .idle
  g : Vector Word 32 := Vector.replicate 32 0
  t : Vector Nat 64 := Vector.replicate 64 0
  p : Vector Bool 8 := Vector.replicate 8 false
  beatBase : Nat := 0
  pc : Nat := 0
  calls : List Nat := []
  races : Vector RaceSlot 4 := Vector.replicate 4 {}
  /-- Lines held by the instruction buffer, most recently used first (R74). -/
  ibuf : List Nat := []
  /-- The sequencer's current instruction, while it waits (R80). -/
  cur : Option Entry := none
  /-- Signals of completed instructions that act in the next cycle (R81, R82). -/
  sigs : List TokSig := []
  /-- General registers whose result is not ready, with the cycles still to wait (R85). -/
  late : List (Nat × Nat) := []
  /-- Free values that the core has drawn (the model's own). -/
  draws : Nat := 0
  /-- The five engine queues; queue code q is entry q − 1 (Table 3.4). -/
  queues : Vector (List Entry) 5 := Vector.replicate 5 []
  /-- ME, VE and Exchange instructions in execution, oldest first; entries 0, 1 and 4. -/
  flights : Vector (List Flight) 5 := Vector.replicate 5 []
  skillet : Mem := {}
  /-- Program region and parameter block of the command (R71). -/
  progLen : Nat := 0
  paramLen : Nat := 0
  loading : Option Loading := none
  /-- The command on the core, and what it was loaded with (R121). -/
  cmd : Option Nat := none
  identity : Nat := 0
  epoch : Nat := 0
  part : Nat := 0
  group : Bool := false
  nrdv : Nat := 0
  /-- The job of the last command that ran: partition and job (R111). -/
  lastJob : Option (Nat × Nat) := none
  /-- Last K of an executed RDV (R369). -/
  lastK : Option Nat := none
  /-- Why the core is ABORTING, and its die-stopping stores. -/
  abortCode : Nat := 0
  /-- SEQ_WDOG.LIMIT, beats without progress, and progress in the present beat (R96). -/
  wdog : Nat := 0x100000
  noProg : Nat := 0
  progress : Bool := false
  /-- SEQ_FAULT. -/
  faultCode : Nat := 0
  faultQueue : Nat := 0
  faultValid : Bool := false
  faultPc : Nat := 0
  seqCnt : Vector Nat 16 := Vector.replicate 16 0
  sklCnt : Vector Nat 8 := Vector.replicate 8 0
  /-- Exchange. -/
  wins : Vector Window 16 := Vector.replicate 16 {}
  ownCredits : List OwnCredit := []
  credits : List HeldCredit := []
  puts : List SentPut := []
  xchCnt : Vector Nat 16 := Vector.replicate 16 0
  me : MeSt := {}
  ve : VeSt := {}
  sm : StreamSt := {}
  /-- Stall counters of engines 1 to 5 (entry q − 1), and SEQ_CYCLES (R489, R490). -/
  stalls : Vector (Vector Nat 16) 5 := Vector.replicate 5 (Vector.replicate 16 0)
  seqCycles : Nat := 0
  /-- Stall cycles of the last 512 beats: from edge, to edge, cause, cycles per beat (R66, R488). -/
  stallWin : List (Nat × Nat × Nat × Nat) := []
  /-- Edge since which the core has been IDLE (R306), and whether it is held in reset (R14, R429). -/
  idleSince : Nat := 0
  inReset : Bool := false
deriving DecidableEq, Repr, Inhabited

/-! ## Package structure: dies, regions, die-to-die links (R8 to R33, R285 to R311) -/

/-- C-die states (Table 1.12). -/
inductive DieState where
  | reset
  | bringup
  | active
  | brownHold
  | degradedHold
  | unreachable
deriving DecidableEq, Repr, Inhabited

/-- A C-die. -/
structure DieSt where
  st : DieState := .reset
  /-- Edge at which the die entered BROWN_HOLD. -/
  holdEdge : Nat := 0
  /-- Rails that caused the hold (Table 14.1). -/
  causes : List Nat := []
  /-- The edge at which a hold that a rail warning calls for begins (R417). -/
  holdDue : Option Nat := none
  /-- Governor duty and thermal duty, of 16 (R424, R426). -/
  govDuty : Nat := 16
  thermDuty : Nat := 16
  /-- The bring-up of step 4 failed (R438). -/
  failed : Bool := false
deriving DecidableEq, Repr, Inhabited

/-- A die-to-die link with its two halves (R24, R25, R298). -/
structure D2D where
  /-- Halves in service. -/
  up : Vector Bool 2 := Vector.replicate 2 false
  /-- Halves dropped as lasting. -/
  dropped : Vector Bool 2 := Vector.replicate 2 false
  /-- Halves under test. -/
  testing : Vector Bool 2 := Vector.replicate 2 false
  /-- Edges of the last retransmissions of each half (R298). -/
  recent : Vector (List Nat) 2 := Vector.replicate 2 []
deriving DecidableEq, Repr, Inhabited

/-- A held rebuild-buffer entry (R292): physical bank and row, and the segment. -/
structure Rebuild where
  bank : Nat
  row : Nat
  seg : Nat
  /-- The reconstruction has ended: the entry holds the rebuilt segment. -/
  done : Bool
  bytes : List Byte := []
deriving DecidableEq, Repr, Inhabited

/-- A bank that is being copied to a spare bank: both as physical banks, and the rows copied so far (R302). -/
structure Sparing where
  bank : Nat
  spare : Nat
  rows : Nat := 0
deriving DecidableEq, Repr, Inhabited

/-- A row with stores that may still merge into a full-row write (R290): physical bank and row, the segments that the
stores cover, as a mask, and the edge of the first. -/
structure OpenRow where
  bank : Nat
  row : Nat
  mask : Nat
  edge : Nat
deriving DecidableEq, Repr, Inhabited

/-- A region: its Stockpot slice and its BIST domain (Tables 10.8 to 10.10). -/
structure Region where
  /-- 0 in service, 1 RETIRING, 2 RETIRED. -/
  slice : Nat := 0
  /-- Physical rows retired, and physical rows under targeted test: bank and row (R299, R301). -/
  retiredRows : List (Nat × Nat) := []
  testRows : List (Nat × Nat) := []
  /-- The remap of rows: physical bank, row, and the physical row of the bank that holds it (R289, R299). -/
  rowMap : List (Nat × Nat × Nat) := []
  /-- The remap of banks: bank, and the physical bank that holds it; and the spare banks left (R289, R302). -/
  bankMap : List (Nat × Nat) := []
  spareBanks : List Nat := [128, 129]
  /-- Stockpot extents in use. -/
  used : List Nat := []
  rebuild : List Rebuild := []
  /-- Reconstructions of the patrol that wait for an entry: bank, row, segment (R292, R294). -/
  patrolWait : List (Nat × Nat × Nat) := []
  openRows : List OpenRow := []
  /-- A region reset runs (R429). -/
  inReset : Bool := false
  /-- Banks being copied to spare banks (R302). -/
  sparing : List Sparing := []
  /-- Next physical row of the patrol (R294). -/
  patrol : Nat := 0
  cnt : Vector Nat 16 := Vector.replicate 16 0
  /-- Home cache: entry index and the interval of its last use, most recent first (R259, R269). -/
  cache : List (Nat × Nat) := []
  /-- Position 12 is enabled (R11) and the position of the core that failed. -/
  spareFor : Option Nat := none
deriving DecidableEq, Repr, Inhabited

/-- A targeted test due or running. -/
structure Test where
  loc : TestLoc
  running : Bool
  deferred : Bool := false
deriving DecidableEq, Repr, Inhabited

/-- The integrity bookkeeping of the management controller. -/
structure IntegritySt where
  tests : List Test := []
  /-- Passed tests by location with their edges, oldest first (R300). -/
  history : List (TestLoc × List Nat) := []
  icnt : Vector Nat 32 := Vector.replicate 32 0
  /-- Skillet banks replaced by each core's two spares (R301, R303). -/
  skilletSpares : List (Nat × Nat) := []
  /-- Retired cores (R14). -/
  retired : List Nat := []
  /-- Far pages retired or withheld (R296, R301). -/
  farRetired : List Nat := []
  farWithheld : List (Nat × Nat) := []
  /-- Stockpot rows recorded in the flash (R305). -/
  flashRows : List (Nat × Nat × Nat) := []
  /-- HLT_BIST_CTRL, HLT_BIST_WIN, HLT_BIST_LEN, HLT_BIST_RESV_w. -/
  bistEnable : Bool := true
  bistClock : Bool := false
  pkgMax : Nat := 32
  rgnMax : Nat := 2
  bistWin : Nat := 0
  bistLen : Nat := 0
  bistResv : Vector Word 3 := Vector.replicate 3 0
  /-- Running slices: core, slice number, second run (R309). -/
  slices : List (Nat × Nat × Bool) := []
  /-- Next slice of each core that has run one, and the edge of its last completed slice. -/
  nextSlice : List (Nat × Nat) := []
  lastSlice : List (Nat × Nat) := []
  /-- Cores whose skipped slice of this idle period is counted (R306). -/
  skipped : List Nat := []
deriving DecidableEq, Repr, Inhabited

/-! ## The Fjarner ports (R312 to R349) -/

/-- Port states (Table 11.16). -/
inductive PortState where
  | disabled
  | training
  | active
  | retraining
  | mismatch
  | down
deriving DecidableEq, Repr, Inhabited

/-- Training steps (Table 11.11). -/
inductive TrainStep where
  | detect
  | equalise
  | lock
  | identify
deriving DecidableEq, Repr, Inhabited

/-- A DATA flit that is not acknowledged: its SEQ, its channel, MSTART and its payload (R319). -/
structure TxFlit where
  seq : Nat
  vc : Nat
  mstart : Nat
  payload : List Byte
deriving DecidableEq, Repr, Inhabited

/-- A whole message in the input buffers of a port: its channel, and the first and last DATA flit of that channel that hold it
(R325, R328). -/
structure RxMsg where
  vc : Nat
  first : Nat
  last : Nat
  bytes : List Byte
deriving DecidableEq, Repr, Inhabited

/-- A Fjarner port. -/
structure Port where
  st : PortState := .disabled
  step : TrainStep := .detect
  /-- FJL_STATUS.ACTIVE, DROPPED, TESTING and FJL_CTRL.LANE_OFF, as lane masks. -/
  active : Nat := 0
  dropped : Nat := 0
  testing : Nat := 0
  laneOff : Nat := 0
  /-- Lanes excluded at DETECT, EQUALISE or LOCK. -/
  excluded : Nat := 0
  corrected : Vector Nat 8 := Vector.replicate 8 0
  attrib : Vector Nat 8 := Vector.replicate 8 0
  /-- FJL_NEIGH. -/
  neighValid : Bool := false
  neighRole : Bool := false
  neighPort : Nat := 0
  neighPkg : Nat := 0
  /-- FJL_LAT, in quarter cycles. -/
  lat : Nat := 0
  echoes : List Nat := []
  /-- This end's identity check, and the far end's verdict (R339). -/
  ownCheck : Option Bool := none
  farVerdict : Option Bool := none
  /-- FJL_FP_RX. -/
  fpRx : Nat := 0
  agreeRun : Nat := 0
  lastKeepalive : Nat := 0
  cnt : Vector Nat 16 := Vector.replicate 16 0
  /-- Transmit side: next SEQ, replay buffer oldest first, the bytes of the messages that wait by channel (true where the header
  has not been sent), credits; and the flits sent, oldest first (R315; IDLE flits that tell nothing new are not listed). -/
  txSeq : Nat := 0
  unacked : List TxFlit := []
  waiting : Vector (List (Bool × List Byte)) 6 := Vector.replicate 6 []
  sent : List (List Byte) := []
  /-- The ACK that the last flit sent carried. -/
  ackTold : Option Nat := none
  credits : Vector Nat 6 := Vector.replicate 6 0
  nakSeq : Nat := 0
  nakRun : Nat := 0
  lastAck : Nat := 0
  /-- Receive side: next SEQ expected, last SEQ accepted, a NAK is outstanding, message bytes by channel. -/
  rxExpect : Nat := 0
  rxLast : Option Nat := none
  nakOut : Bool := false
  rxBytes : Vector (List Byte) 6 := Vector.replicate 6 []
  /-- Whole messages received and not yet acted on, oldest first. -/
  rxMsgs : List RxMsg := []
  /-- By channel: DATA flits accepted, the first one of the bytes in `rxBytes`, and credits returned (R325). -/
  rxCount : Vector Nat 6 := Vector.replicate 6 0
  rxFrom : Vector Nat 6 := Vector.replicate 6 0
  rxReturned : Vector Nat 6 := Vector.replicate 6 0
  /-- Flits received since the byte stream began (R315), and in all. -/
  flitNo : Nat := 0
  rxTotal : Nat := 0
  /-- Corrected bytes of the last 1,024 flits: flit number in all, lane, bytes (R322). -/
  window : List (Nat × Nat × Nat) := []
  attribEdges : List Nat := []
  /-- Width change in progress: the mask that WIDTH flits name (R323). -/
  widthTo : Option Nat := none
  /-- Edge at which the port went DOWN or began its step. -/
  since : Nat := 0
  /-- Response slots granted in a row while a request waited, and the dateline class served last by class (R326). -/
  rspRun : Nat := 0
  lastDl : Vector Nat 3 := Vector.replicate 3 1
deriving DecidableEq, Repr, Inhabited

/-! ## The Tongs, far memory, the Press (R245 to R284) -/

/-- States of a home entry (Table 9.2); a FREE entry is not listed. -/
inductive ObjState where
  | creating
  | resident
  | lost
deriving DecidableEq, Repr, Inhabited

/-- Move lock (Table 9.7). -/
inductive Phase where
  | none
  | copy
  | flip
deriving DecidableEq, Repr, Inhabited

/-- A home-table entry that is not FREE (Table 9.2). -/
structure Obj where
  idx : Nat
  gen : Nat
  st : ObjState
  owner : Nat
  part : Nat
  grants : Nat := 0
  pin : Bool := false
  secure : Bool := false
  evictable : Bool := false
  phase : Phase := .none
  target : Nat := 0
  /-- EVICT_Q and EVICT_TARGET, with the acceptance number of the queued request. -/
  evictQ : Option (Nat × Nat) := none
  size : Nat
  cur : Version
  lastUse : Nat := 0
  version : Nat := 0
  /-- Commands that hold a staged version of it. -/
  stagedBy : List Nat := []
deriving DecidableEq, Repr, Inhabited

/-- Why a move runs. -/
inductive MoveKind where
  | move
  | evict
  | auto
  /-- It empties a slice that retires (R302). -/
  | retire
deriving DecidableEq, Repr, Inhabited

/-- A move: it waits with the lock taken, copies, or flips (R258). -/
structure Move where
  idx : Nat
  kind : MoveKind
  /-- Acceptance number of its request; 0 for an automatic eviction. -/
  acceptNo : Nat
  tgt : Version
  waiting : Bool
  /-- Its copy has begun (R258, step 3). -/
  begun : Bool := false
  /-- The segment whose reconstruction its copy waits for (R291). -/
  recon : Option (Nat × Nat × Nat × Nat) := none
deriving DecidableEq, Repr, Inhabited

/-- A move in FLIP (R258, Table 9.7): its entry, kind and request, and what stands again if a package reset overtakes it:
the old home, its LAST_USE, and the release that holds its extents. -/
structure Flip where
  idx : Nat
  kind : MoveKind
  acceptNo : Nat
  old : Version
  lastUse : Nat
  rel : Nat
deriving DecidableEq, Repr, Inhabited

/-- An entry of the Press's merge buffer (R275): a block of the version that a command stages of an object, or once the command
has committed of the current one; and the tag of the HOST_READ that brings its sectors, while it is outstanding. -/
structure MergeEnt where
  idx : Nat
  cmd : Option Nat
  blk : Nat
  tag : Option Nat := none
deriving DecidableEq, Repr, Inhabited

/-- Extents that are released once no granule translated to them is outstanding and the Lid holds them no more
(R259, R391). -/
structure Release where
  id : Nat
  client : Nat
  tier : Nat
  press : Bool
  wheres : List Nat
  units : Nat
  pooled : Bool := false
  blocks : List Block := []
deriving DecidableEq, Repr, Inhabited

/-- An allocation that waits for evictions (R266): its command, its deadline edge and its code; or, for the targets of a move
that no request asked for, the entry and the kind of the move. -/
structure AllocWait where
  acceptNo : Nat
  until_ : Nat
  code : Nat
  auto : Option (Nat × MoveKind) := none
deriving DecidableEq, Repr, Inhabited

/-- A quota (TNG_QUOTA_c_t). -/
structure Quota where
  auto : Bool := false
  used : Nat := 0
  limit : Nat := 0
deriving DecidableEq, Repr, Inhabited

/-- The object mover with the home table, the quotas, far memory and the Press. -/
structure TongsSt where
  objs : List Obj := []
  /-- GEN of entries that have been used, by index (R247). -/
  gens : List (Nat × Nat) := []
  moves : List Move := []
  flips : List Flip := []
  releases : List Release := []
  nextRelease : Nat := 0
  waits : List AllocWait := []
  quotas : Vector (Vector Quota 3) 64 := Vector.replicate 64 (Vector.replicate 3 {})
  evictWait : Nat := 0x40000
  moveRate : Nat := 0x1000
  /-- Grant and revoke requests whose invalidations are outstanding (R270). -/
  invals : List Nat := []
  /-- The merge buffer of the Press: at most 256 blocks, oldest first (R275). -/
  merge : List MergeEnt := []
  /-- Far extents and block maps in use, and extents of the host pool; the sectors in use stand in the block maps. -/
  farUsed : List Nat := []
  mapsUsed : List Nat := []
  pool : List Nat := []
  /-- FAR_CFG. -/
  density : Nat := 0
  ranks : Bool := false
  rate : Bool := false
  /-- FAR_STATUS: trained channels. -/
  trained : Nat := 0
  farPresent : Bool := false
  /-- The Lid reserve in bytes (R385). -/
  reserve : Nat := 0
  codecVer : Nat := 0
  pressReady : Bool := false
  tiersUp : Bool := false
  cnt : Vector Nat 32 := Vector.replicate 32 0
deriving DecidableEq, Repr, Inhabited

/-! ## Commands, partitions, journal (R350 to R382) -/

/-- The stages of an accepted command. -/
inductive CmdStage where
  /-- Its ACCEPT record is being mirrored (R358). -/
  | mirroring
  /-- Accepted and not started, or waiting to rerun. -/
  | queued
  /-- Started: staged versions are being allocated and copied (R362). -/
  | staging
  /-- Its cores load, run and drain. -/
  | running
  /-- Every core has ended; a local commit waits for a freeze, a hold or the securing ceiling. -/
  | commitWait
  /-- Its COMMIT record is being mirrored, or its flips wait. -/
  | committing
  /-- A group participant: every core has ended and PREPARE is being mirrored. -/
  | preparing
  /-- A group participant that has voted COMMIT or waits to vote. -/
  | prepared
  /-- Its cores stop. -/
  | aborting
  /-- A group participant that has voted ABORT or FAIL and waits for the decision. -/
  | votedAbort
  | inDoubt
  | held
  /-- An object request that the Tongs has started and that is open. -/
  | object
  | resolved
deriving DecidableEq, Repr, Inhabited

/-- An object of a command with its staged version (R362, R364). -/
structure ObjUse where
  handle : Nat
  role : Nat
  staged : Option Version := none
  copied : Bool := true
  /-- The copy of an OUT_COPY object has begun, and the segment whose reconstruction it waits for (R291, R362). -/
  begun : Bool := false
  recon : Option (Nat × Nat × Nat × Nat) := none
  /-- A row of the version that is to be committed was lost: the object becomes LOST as it flips (R293). -/
  lost : Bool := false
deriving DecidableEq, Repr, Inhabited

/-- The group state of a GROUP command (R55 to R66, R367 to R376). -/
structure Group where
  gid : Nat
  start : Nat
  boxLo : Nat
  boxHi : Nat
  nrdv : Nat
  coordPartner : Nat
  rerunDelay : Nat
  /-- OFFSET and PEERS of each rendezvous. -/
  entries : List (Nat × Nat)
  /-- The base: START or the restart beat, and 512 for each slip applied. -/
  base : Nat
  /-- The next rendezvous, and the slips applied to each. -/
  k : Nat := 0
  slips : List (Nat × Nat) := []
  /-- Last K that each core has executed, with the edge at which it did. -/
  rdvs : List (Nat × Nat × Nat) := []
  readySent : List Nat := []
  readies : List (Nat × Nat) := []
  /-- Children from which COMMIT has arrived. -/
  commits : List Nat := []
  prepared : Bool := false
  /-- The vote sent: 1 COMMIT, 2 ABORT, 3 FAIL. -/
  voted : Option Nat := none
  /-- A negative vote of a child has been forwarded (R372). -/
  forwarded : Bool := false
  voteEdge : Nat := 0
  /-- The largest restart-not-before of the attempt's votes. -/
  restart : Nat := 0
  decision : Option Decision := none
  /-- A COMMIT decision that waits for the mirror at COORD_PARTNER, with the tag of the mirror. -/
  deciding : Option (Decision × Nat) := none
  /-- Queries sent while in doubt. -/
  queries : Nat := 0
  lastQuery : Nat := 0
deriving DecidableEq, Repr, Inhabited

/-- An accepted command. -/
structure Cmd where
  acceptNo : Nat
  kind : Nat
  tag : Nat
  message : List Byte
  client : Nat
  part : Nat
  job : Nat
  req : Nat
  rerunMax : Nat
  stage : CmdStage
  attempts : Nat := 0
  epoch : Nat := 0
  identity : Nat := 0
  notBefore : Nat := 0
  objs : List ObjUse := []
  cores : List Nat := []
  /-- Cores that have ended the attempt through END. -/
  ended : List Nat := []
  /-- Why the attempt ended: code, subcode, cause and package of Table 12.4. -/
  code : Nat := 0
  sub : Nat := 0
  cause : Nat := 0
  causePkg : Nat := 0
  /-- PREEMPT requests to be answered when the cores are IDLE: host tag and REQ. -/
  preempts : List (Nat × Nat) := []
  heldAt : Nat × Nat := (0, 0)
  group : Option Group := none
  final : Option Reply := none
  acceptEdge : Nat := 0
  startEdge : Nat := 0
  /-- Journal SEQ of its COMMIT record, and its beat. -/
  commitSeq : Nat := 0
  commitBeat : Nat := 0
  restored : Bool := false
  /-- The handle that a CREATE replayed after a restoration takes (Table 13.10). -/
  redo : Option Nat := none
  /-- A kill that takes effect at the next beat edge: code, subcode, cause, reporting package (R372, R377). -/
  kill : Option (Nat × Nat × Nat × Nat) := none
  killEdge : Nat := 0
deriving DecidableEq, Repr, Inhabited

/-- A resident job context (R352). -/
structure JobCtx where
  job : Nat
  /-- JOB_END requests that wait: host tag and REQ. -/
  ending : List (Nat × Nat) := []
deriving DecidableEq, Repr, Inhabited

/-- A partition. -/
structure Part where
  enable : Bool := false
  cores : Vector Word 3 := Vector.replicate 3 0
  ctxs : List JobCtx := []
  /-- Round-robin position: the job that started last. -/
  lastJob : Option Nat := none
  running : Option Nat := none
  heldRestore : Bool := false
deriving DecidableEq, Repr, Inhabited

/-- A client. -/
structure Client where
  valid : Bool := false
  part : Nat := 0
  /-- One more than the highest REQ accepted (R357); 0 when none was. -/
  nextReq : Nat := 0
deriving DecidableEq, Repr, Inhabited

/-- Why a MIRROR is outstanding. -/
inductive MirrorFor where
  | accept (acceptNo : Nat)
  | commit (acceptNo : Nat)
  | prepare (acceptNo : Nat)
  | decision (acceptNo : Nat)
  | plain
deriving DecidableEq, Repr, Inhabited

/-- A MIRROR that is not acknowledged. -/
structure MirrorOut where
  tag : Nat
  rec_ : JRec
  why : MirrorFor
  dst : Nat
  sentEdge : Nat
  tries : Nat := 1
deriving DecidableEq, Repr, Inhabited

/-- The command unit. -/
structure CmdSt where
  clients : Vector Client 64 := Vector.replicate 64 {}
  parts : Vector Part 16 := Vector.replicate 16 {}
  cmds : List Cmd := []
  nextAccept : Nat := 1
  journal : List JRec := []
  nextSeq : Nat := 0
  mirrors : List MirrorOut := []
  replaying : Bool := true
  rerunDefault : Nat := 8
  groupLead : Nat := 0x4000
  cnt : Vector Nat 16 := Vector.replicate 16 0
  cli : Vector (Vector Nat 16) 64 := Vector.replicate 64 (Vector.replicate 16 0)
  /-- What this package holds for its partner: the partner's journal; and the decisions that it can answer with: its
  own as a coordinator, and those of groups that name it as COORD_PARTNER (R359, R373, R374). -/
  partnerJrnl : List JRec := []
  partnerDec : List Decision := []
deriving DecidableEq, Repr, Inhabited

/-! ## The Lid and the PCIe root port (R383 to R413) -/

/-- Pairing states (LID_STATUS.STATE). -/
inductive PairState where
  | unpaired
  | pairing
  | paired
  | degraded
  | refused
deriving DecidableEq, Repr, Inhabited

/-- A seal (Table 13.4). -/
structure Seal where
  pkg : Nat
  part : Nat
  slot : Nat
  medium : Nat
  align : Bool
  gen : Nat
  freezeBeat : Nat
  freezeSeq : Nat
  nextAccept : Nat
  imageBytes : Nat
  cfgFp : Nat
  nchunk : Nat
  digest : List Byte
deriving DecidableEq, Repr, Inhabited

/-- A frozen object of an image: its entry and, for a SECURE object of tier 0 or 1, its content (Table 13.3). -/
structure ImgObj where
  obj : Obj
  content : Option Mem
deriving DecidableEq, Repr, Inhabited

/-- The image of a partition at its freeze (Table 13.3). -/
structure Image where
  part : Nat
  gen : Nat
  /-- First 64 bits of the configuration fingerprint at the freeze. -/
  cfgFp : Nat := 0
  freezeBeat : Nat
  freezeSeq : Nat
  nextAccept : Nat
  clients : List (Nat × Client)
  quotas : List (Nat × List Quota)
  enable : Bool
  cores : Vector Word 3
  journal : List JRec
  objs : List ImgObj
deriving DecidableEq, Repr, Inhabited

/-- The steps of a secure (R392). -/
inductive SecStep where
  | clearSeal
  | pages
  | sealing
  | pointer0
  | pointer1
deriving DecidableEq, Repr, Inhabited

/-- A secure in progress. -/
structure Secure where
  part : Nat
  slot : Nat
  gen : Nat
  image : Image
  step : SecStep
  /-- Next page to send, and pages sent and not acknowledged. -/
  page : Nat := 0
  pages : Nat
  out : List Nat := []
  sentEdge : Nat := 0
  /-- Times the outstanding message was sent: 2 after a PARITY_NAK (R329). -/
  tries : Nat := 1
  /-- The segment whose reconstruction the next page waits for (R291). -/
  recon : Option (Nat × Nat × Nat × Nat) := none
deriving DecidableEq, Repr, Inhabited

/-- A copy of an image to flash or to the shared store in progress (R398, R399, R401). -/
structure SlowCopy where
  part : Nat
  slot : Nat
  gen : Nat
  image : Image
  /-- 0 data pages, 1 Flush, 2 seal, 3 and 4 pointer copies. -/
  step : Nat := 0
  page : Nat := 0
  /-- The next page is not read yet: RATE is 0, a die holds it, or a segment is being reconstructed (R28, R291, R395). -/
  waits : Bool := false
  recon : Option (Nat × Nat × Nat × Nat) := none
deriving DecidableEq, Repr, Inhabited

/-- Securing state of a partition. -/
structure LidPart where
  native : Bool := false
  align : Bool := false
  slotUnits : Nat := 0
  lSteps : Nat := 8
  baseSteps : Nat := 4
  gen : Nat := 0
  stepsDone : Nat := 0
  stepsSince : Nat := 0
  /-- 0 none, 1 slot A, 2 slot B. -/
  active : Nat := 0
  marker : Nat := 0
  freezeBeat : Nat := 0
  due : Bool := false
  /-- A secure was abandoned: it falls due again at the next commit (R397). -/
  again : Bool := false
  lastFreeze : Nat := 0
  commitsSince : Nat := 0
  /-- FREEZE_SEQ of the two slots' valid images. -/
  seqA : Option Nat := none
  seqB : Option Nat := none
  /-- The valid images by medium and slot, as this package knows them: partner 0, flash 1, store 2. -/
  images : List (Nat × Nat × Image) := []
  /-- The pointer copies as written, by medium and copy: slot and generation (Table 13.5). -/
  ptrs : List (Nat × Nat × Nat × Nat) := []
deriving DecidableEq, Repr, Inhabited

/-- A restoration in progress (R408). -/
structure Restoring where
  part : Nat
  source : Nat
  point : Nat
deriving DecidableEq, Repr, Inhabited

/-- A page slot held for the partner (Table 13.2). -/
structure HeldSlot where
  part : Nat
  slot : Nat
  gen : Nat
  pages : List (Nat × List Byte) := []
  sealBytes : Option (List Byte) := none
deriving DecidableEq, Repr, Inhabited

/-- The Lid. -/
structure LidSt where
  st : PairState := .unpaired
  partnerFeed : Nat := 0xF
  partnerId : Nat := 0
  partner : Nat := 0
  partnerValid : Bool := false
  nStore : Nat := 0
  nFlash : Nat := 0
  slotGib : Nat := 0
  firstLba : Nat := 0
  /-- The TAG of a PAIR that is not answered, and the edge of the last PAIR. -/
  pairOut : Option Nat := none
  pairTries : Nat := 1
  pairEdge : Nat := 0
  flashOk : Bool := false
  flash : Option SlowCopy := none
  storeWait : Option (Nat × Nat) := none
  store : Option SlowCopy := none
  secure : Option Secure := none
  /-- Partitions whose secure is due, and frozen images that wait for the copy that runs (R390, R395). -/
  dueQ : List Nat := []
  frozen : List Secure := []
  /-- Local commits that waited for a freeze (R390). -/
  freezeWaits : Nat := 0
  restoring : List Restoring := []
  rate : Nat := 0x1100
  risk : Nat := 0
  minGap : Nat := 0x1000000
  decay : Nat := 0x1000
  high : Nat := 0x200
  weights : Word := 0xFF20084080011001
  storeAddr : Nat := 0
  restorePoint : Nat := 0
  restoreStart : Nat := 0
  parts : Vector LidPart 16 := Vector.replicate 16 {}
  cnt : Vector Nat 16 := Vector.replicate 16 0
  /-- Rereads, replayed flits and beats above T_WARN behind the risk inputs (R403, R488). -/
  riskReads : Nat := 0
  riskFlits : Nat := 0
  riskBeats : Nat := 0
  lastDecay : Nat := 0
  /-- What this package holds for its partner. -/
  heldSlots : List HeldSlot := []
  heldPtr : List (Nat × Nat × List Byte) := []
  /-- PCIE_STATUS. -/
  pcieState : Nat := 0
  pcieWidth : Nat := 0
  pcieRate : Nat := 0
  pcieFlit : Bool := false
  nvmeReady : Bool := false
deriving DecidableEq, Repr, Inhabited

/-! ## Power, reset, boot, configuration, identity, sideband (R414 to R465, R481 to R484) -/

/-- A supply rail (Table 14.1). -/
structure Rail where
  volt : Nat := 0
  /-- 0 in range, 1 warning band, 2 below reset. -/
  st : Nat := 0
  /-- Edge at which it last recovered (R414). -/
  recovered : Nat := 0
deriving DecidableEq, Repr, Inhabited

/-- A configuration record that has been parsed and checked (Tables 14.7 to 14.9). -/
structure CfgRec where
  gen : Nat := 0
  atReset : Bool := false
  actBeat : Nat := 0
  bytes : List Byte := []
deriving DecidableEq, Repr, Inhabited

/-- Power, reset, straps and boot. -/
structure PowerSt where
  stateKept : Bool := false
  srClean : Bool := false
  capUnmet : Bool := false
  thermWarn : Bool := false
  degraded : Bool := false
  brown : Bool := false
  rails : Vector Rail 11 := Vector.replicate 11 {}
  /-- The fused targets of VDD_C0 to VDD_C3 in mV (R415). -/
  fusedMv : Vector Nat 4 := Vector.replicate 4 700
  trayMode : Nat := 0
  hostMode : Nat := 2
  /-- The effective cap in force since the last governor period (R423). -/
  capInForce : Nat := 2
  tWarn : Nat := 95
  tmax : Vector Nat 5 := Vector.replicate 5 0
  /-- Governor: consecutive periods below the cap by more than 3%, and periods at duty 4 above it. -/
  lowRun : Nat := 0
  minRun : Nat := 0
  /-- Package power of the last governor period in W, and edges of the last governor and thermal periods. -/
  watts : Nat := 0
  govAt : Nat := 0
  thermAt : Vector Nat 5 := Vector.replicate 5 0
  cnt : Vector Nat 16 := Vector.replicate 16 0
  /-- Straps as the balls carry them, and as sampled. -/
  ballBoot : Nat := 3
  ballClk : Nat := 3
  ballFeed : Nat := 0xF
  ballSlot : Nat := 7
  bootRsv : Bool := false
  bootSrc : Nat := 3
  clkMode : Nat := 3
  feedId : Nat := 0xF
  traySlot : Nat := 7
  /-- PWR_BOOT. -/
  stage : Nat := 1
  failed : Bool := false
  bootMs : Nat := 0
  /-- Edge at which the boot stopped (R439). -/
  failEdge : Nat := 0
  /-- The firmware drives PCIE_PERST_N high, so that the endpoint leaves reset (R471). -/
  perst : Bool := false
  /-- RST_STATUS.CAUSE. -/
  cause : Nat := 1
  resets : List BlockReset := []
  /-- The package is held in reset: before RESET_RELEASE. -/
  inReset : Bool := true
  /-- THERMTRIP_N is asserted. -/
  thermTrip : Bool := false
  /-- Dies that throttle, by R426. -/
  throttled : Vector Bool 5 := Vector.replicate 5 false
  /-- READY has been reported. -/
  ready : Bool := false
deriving DecidableEq, Repr, Inhabited

/-- Configuration: identity of the package, active and staged records, announcement (R18 to R20, R441 to R447). -/
structure CfgSt where
  valid : Bool := false
  pkgId : Nat := 0
  na : Nat := 0
  nb : Nat := 0
  nc : Nat := 0
  /-- The active and the staged record of the configuration flash. -/
  active : Option CfgRec := none
  staged : Option CfgRec := none
  /-- CFG_STATUS. -/
  stage : Nat := 0
  stale : Bool := false
  defaulted : Bool := false
  staleLogged : Bool := false
  fp : List Byte := []
  prevFp : List Byte := []
  prevFpBeat : Nat := 0
  /-- CFG_STAGE_DATA and the record being written. -/
  stageData : Mem := {}
  writing : Option CfgRec := none
  actBeat : Nat := 0
  actGen : Nat := 0
  armed : Bool := false
deriving DecidableEq, Repr, Inhabited

/-- A firmware slot: 0 EMPTY, 1 WRITING, 2 VALID, 3 INVALID. -/
structure FwSlot where
  st : Nat := 0
  svn : Nat := 0
  digest : List Byte := []
  /-- The bytes written to the slot. -/
  image : Mem := {}
  len : Nat := 0
deriving DecidableEq, Repr, Inhabited

/-- Identity, firmware and attestation. -/
structure FwSt where
  slotA : FwSlot := {}
  slotB : FwSlot := {}
  /-- The slot pointer: false slot A, true slot B; TRIAL, ATTEMPTED and REVERTED (R456, R458). -/
  active : Bool := false
  trial : Bool := false
  attempted : Bool := false
  reverted : Bool := false
  /-- The operation that runs: 0 none, else OP of Table 15.4. -/
  busy : Nat := 0
  lastReject : Nat := 0
  /-- SVN, KEY_SLOT, REVOKE_OTHER and digest of the running image. -/
  svnRun : Nat := 0
  runKey : Nat := 0
  runRevoke : Bool := false
  runDigest : List Byte := []
  /-- The trial was reverted at this boot: logged once the firmware runs (R458). -/
  revertLog : Bool := false
  /-- ARB_COUNTER and VKEY_REVOKE. -/
  arb : Nat := 0
  revoke : Nat := 0
  /-- CFG_FW_SRC. -/
  src : Nat := 0
  /-- Bytes of the image being read from the host, at boot or by STAGE, and how many have arrived. -/
  image : Mem := {}
  got : Nat := 0
  /-- CFG_ATT registers. -/
  nonce : Vector Word 4 := Vector.replicate 4 0
  attObj : Vector Word 16 := Vector.replicate 16 0
  attOff : Vector Word 16 := Vector.replicate 16 0
  attState : Nat := 0
  attDetail : Nat := 0
  /-- The header and entries of a report as captured, and the whole report once it is DONE. -/
  captured : List Byte := []
  report : List Byte := []
deriving DecidableEq, Repr, Inhabited

/-- The sideband target (R478 to R484). -/
structure SideSt where
  /-- The dynamic address, if SETDASA has assigned one. -/
  dynamic : Option Nat := none
  /-- The offset that the next read starts from. -/
  ptr : Nat := 0
  /-- WRITE_IGNORED (Table 16.10). -/
  ignored : Bool := false
deriving DecidableEq, Repr, Inhabited

/-! ## Requests outstanding at the host port -/

/-- The unit that waits for a HOST_READ or a HOST_WRITE. -/
inductive HostOwner where
  | granule (core tag : Nat)
  /-- The copy of a move (R258), of an OUT_COPY object of a command (R362), and a block of the merge buffer (R275). -/
  | move (idx : Nat)
  | stage (acceptNo handle : Nat)
  | merge (e : MergeEnt)
  /-- Its requester waits no more: the answer is dropped. -/
  | dropped
  | boot (off : Nat)
  | firmware (off : Nat)
  | lid (page : Nat)
deriving DecidableEq, Repr, Inhabited

/-- A HOST_READ or HOST_WRITE that is not answered (R278). -/
structure HostReq where
  tag : Nat
  write : Bool
  addr : Nat
  len : Nat
  owner : HostOwner
  sentEdge : Nat
  /-- The bytes of a HOST_WRITE, and the object byte that a granule's request begins at. -/
  data : List Byte := []
  off : Nat := 0
  /-- Times sent: 2 after a PARITY_NAK (R329). -/
  tries : Nat := 1
deriving DecidableEq, Repr, Inhabited

/-! ## The package -/

/-- The state of one PV7-A4 package. -/
structure State where
  /-- The commands that wait, first in, first out. -/
  pending : List Instr := []
  /-- Occasions on which a free value was drawn (Config): the model's own field, not the manual's. -/
  freeCtr : Nat := 0
  /-- Message tags given so far: the model's own numbering of TAG (Table 11.6). -/
  nextTag : Nat := 0
  /-- Everything sent, oldest first. -/
  outbox : List OutItem := []
  beat : BeatSt := {}
  log : LogSt := {}
  dies : Vector DieSt 4 := Vector.replicate 4 {}
  links : Vector D2D 8 := Vector.replicate 8 {}
  regions : Vector Region 16 := Vector.replicate 16 {}
  cores : Vector CoreSt 192 := Vector.replicate 192 {}
  ports : Vector Port 17 := Vector.replicate 17 {}
  tongs : TongsSt := {}
  cmd : CmdSt := {}
  lid : LidSt := {}
  integ : IntegritySt := {}
  power : PowerSt := {}
  cfg : CfgSt := {}
  fw : FwSt := {}
  side : SideSt := {}
  hostReqs : List HostReq := []
  /-- Class 1 and class 2 messages held for cores of a die in BROWN_HOLD (R331). -/
  heldMsgs : List Instr := []
deriving DecidableEq, Repr, Inhabited

/-- Why a step stops with a fault. No step of this model does: an error of the package is an effect on the state. -/
inductive Fault where
  /-- Raised by no meaning. Safe. -/
  | none
deriving DecidableEq, Repr, Inhabited

/-- Why a step refuses a command. -/
inductive Refusal where
  /-- Raised by an arm of exec whose command has no meaning yet. Safe. -/
  | notModelled (mnemonic : String)
deriving DecidableEq, Repr, Inhabited

/-- The package right after a package reset: every field at the value the manual states, and where it states none at
the value that assumptions 2 to 4 name. -/
def State.reset : State := {}

end Sys2Proof.Machine
end

