-- ==== Sys2Proof/Machine/Flit.lean ====
section
/-!
DEFINITION. The codes of the Fjarner link and of configuration records: RS(128, 120), CRC-64 and CRC-32C, and the fields
of a flit (R315 to R318, Table 14.7).
-/

namespace Sys2Proof.Machine

open Sys2Proof

/-! ## GF(2^8) with x^8 + x^4 + x^3 + x^2 + 1 (R316) -/

/-- Multiplication by α. -/
def gfDouble (a : Nat) : Nat := if 128 ≤ a then (2 * a) ^^^ 0x11D else 2 * a

/-- Product of two field elements. -/
def gfMul (a b : Nat) : Nat :=
  ((List.range 8).foldl (fun (p : Nat × Nat) i => (if bitOf b i then p.1 ^^^ p.2 else p.1, gfDouble p.2)) (0, a)).1

/-- A field element to a power. -/
def gfPow (a n : Nat) : Nat := iter (gfMul a) n 1

/-- The inverse of a field element that is not 0: a^254. -/
def gfInv (a : Nat) : Nat := gfPow a 254

/-- α to a power. -/
def alpha (n : Nat) : Nat := iter gfDouble (n % 255) 1

/-- The value of a polynomial, coefficients from the lowest, at a point. -/
def polyAt (p : List Nat) (x : Nat) : Nat := p.foldr (fun c acc => c ^^^ gfMul acc x) 0

/-- Sum of two polynomials. -/
def polyAdd : List Nat → List Nat → List Nat
  | [], q => q
  | p, [] => p
  | a :: p, b :: q => (a ^^^ b) :: polyAdd p q

/-- A polynomial times a constant. -/
def polyScale (c : Nat) (p : List Nat) : List Nat := p.map (gfMul c)

/-- The product of two polynomials. -/
def polyMul : List Nat → List Nat → List Nat
  | [], _ => []
  | a :: p, q => polyAdd (polyScale a q) (0 :: polyMul p q)

/-! ## Decoding RS(128, 120) (R316) -/

/-- Syndromes of a received word, first byte the highest power (PRESUMED, assumption 30): its values at α^0 to α^7. -/
def syndromes (w : List Nat) : List Nat := (List.range 8).map fun i => polyAt w.reverse (alpha i)

/-- One step of the Berlekamp–Massey recursion: connection polynomial, previous one, length, shift, previous
discrepancy. -/
def bmStep (s : List Nat) (st : List Nat × List Nat × Nat × Nat × Nat) (n : Nat) : List Nat × List Nat × Nat × Nat × Nat :=
  let (c, b, l, m, d0) := st
  let d := (List.range l).foldl (fun acc i => acc ^^^ gfMul (c.getD (i + 1) 0) (s.getD (n - (i + 1)) 0)) (s.getD n 0)
  if d = 0 then (c, b, l, m + 1, d0)
  else
    let c' := polyAdd c (polyScale (gfMul d (gfInv d0)) (List.replicate m 0 ++ b))
    if 2 * l ≤ n then (c', c, n + 1 - l, 1, d) else (c', b, l, m + 1, d0)

/-- The error locator of a syndrome list, and its length. -/
def locator (s : List Nat) : List Nat × Nat :=
  let r := (List.range 8).foldl (bmStep s) ([1], [1], 0, 1, 1)
  (r.1, r.2.2.1)

/-- The formal derivative of a polynomial. -/
def polyDeriv (p : List Nat) : List Nat := (p.drop 1).mapIdx fun i c => if i % 2 = 0 then c else 0

/-- A codeword of 128 bytes decoded: the word corrected, and the positions corrected; none when it has more errors than
4. -/
def rsDecode (w : List Nat) : Option (List Nat × List Nat) :=
  let s := syndromes w
  if s.all (· == 0) then some (w, [])
  else
    let (lam, l) := locator s
    let pos := (List.range 128).filter fun j => polyAt lam (alpha (255 - j)) == 0
    if 4 < l ∨ pos.length ≠ l then none
    else
      let om := (polyMul s lam).take 8
      let dl := polyDeriv lam
      let fix := fun (w : List Nat) (j : Nat) =>
        let x' := alpha (255 - j)
        let e := gfMul (alpha j) (gfMul (polyAt om x') (gfInv (polyAt dl x')))
        w.mapIdx fun i b => if i + j = 127 then b ^^^ e else b
      let w' := pos.foldl fix w
      if (syndromes w').all (· == 0) then some (w', pos.map fun j => 127 - j) else none

/-- The generator polynomial of R316, coefficients from the lowest: the product of x + α^i for i from 0 to 7. -/
def rsGenerator : List Nat := (List.range 8).foldl (fun g i => polyMul [alpha i, 1] g) [1]

/-- The 8 parity bytes of 120 data bytes, the first byte the highest power: the remainder of the data times x^8 (R316). -/
def rsParity (data : List Nat) : List Nat :=
  let g := (rsGenerator.take 8).reverse
  data.foldl (fun r b =>
    let q := b ^^^ r.headD 0
    (r.drop 1 ++ [0]).zipWith (fun x y => x ^^^ gfMul q y) g) (List.replicate 8 0)

/-- Bytes of a list at the indices of one parity. -/
def everyOther (odd : Nat) (l : List Nat) : List Nat :=
  (l.mapIdx fun i b => (i, b)).filterMap fun p => if p.1 % 2 = odd then some p.2 else none

/-- Codeword 0 or 1 of a flit (R316): its data bytes, then its parity bytes. -/
def codeword (f : List Nat) (k : Nat) : List Nat := everyOther k (f.take 240) ++ everyOther k (f.drop 240)

/-- Where byte `i` of codeword `k` lies in the flit. -/
def flitPos (k i : Nat) : Nat := if i < 120 then 2 * i + k else 240 + 2 * (i - 120) + k

/-- A flit decoded: bytes 0 to 239 as corrected, the flit positions corrected, and the codewords that could not be
decoded (R316, R318). -/
def fecDecode (f : List Nat) : List Nat × List Nat × Nat :=
  let r := (List.range 2).map fun k => (k, rsDecode (codeword f k))
  let bad := (r.filter fun p => p.2.isNone).length
  let fixed := r.flatMap fun p => match p.2 with
    | some q => q.2.map fun i => (flitPos p.1 i, q.1.getD i 0)
    | none => []
  ((f.take 240).mapIdx fun i b => alGet fixed i b, fixed.map (·.1), bad)

/-! ## CRCs -/

/-- One byte of the CRC-64 of ECMA-182, most significant bit first (R317). -/
def crc64Byte (c b : Nat) : Nat :=
  iter (fun x => if 2 ^ 63 ≤ x then (2 * x % 2 ^ 64) ^^^ 0x42F0E1EBA9EA3693 else 2 * x) 8 (c ^^^ (b * 2 ^ 56))

/-- The CRC-64 of R317. -/
def crc64 (bs : List Nat) : Nat := (bs.foldl crc64Byte (2 ^ 64 - 1)) ^^^ (2 ^ 64 - 1)

/-- One byte of the CRC-32C, reflected. -/
def crc32cByte (c b : Nat) : Nat := iter (fun x => if x % 2 = 1 then (x / 2) ^^^ 0x82F63B78 else x / 2) 8 (c ^^^ b)

/-- The CRC-32C of a byte string. -/
def crc32c (bs : List Nat) : Nat := (bs.foldl crc32cByte (2 ^ 32 - 1)) ^^^ (2 ^ 32 - 1)

/-! ## The flit header (Tables 11.3 and 11.4) -/

/-- The fields of a DATA flit that passes R318. -/
structure DataFlit where
  h : FlitHdr
  ftype : Nat
  seq : Nat
  mstart : Nat
  pvc : Nat
  payload : List Byte
deriving DecidableEq, Repr, Inhabited

/-- The header of a flit, most significant byte first. -/
def flitFields (f : List Nat) : DataFlit :=
  let h := (f.take 8).foldl (fun acc b => 256 * acc + b) 0
  { h := { ack := bitsOf h 47 36, ackv := bitOf h 35, cvc := bitsOf h 34 32, ccount := bitsOf h 31 24 }
    ftype := bitsOf h 63 60, seq := bitsOf h 59 48, mstart := bitsOf h 23 16, pvc := bitsOf h 15 13
    payload := ((f.drop 8).take 224).map toB }

/-- The CRC that a flit carries in bytes 232 to 239. -/
def flitCrc (f : List Nat) : Nat := ((f.drop 232).take 8).foldl (fun acc b => 256 * acc + b) 0

end Sys2Proof.Machine
end

