-- ==== Sys2Proof/Machine/Wire.lean ====
section
/-!
DEFINITION. Messages, journal records, log records and flits as bytes (R315 to R317, R328, R359, R491, Tables 4.15, 11.2,
11.3, 11.6, 11.12, 11.13, 12.4 to 12.7, 12.11, 17.5).
-/

namespace Sys2Proof.Machine

open Sys2Proof

/-! ## Message types and sizes (Table 11.8, R328) -/

/-- MTYPE of a body. -/
def Body.mtype : Body → Nat
  | .ready .. => 0x01
  | .slip .. => 0x02
  | .vote _ => 0x03
  | .decision _ => 0x04
  | .put _ => 0x10
  | .grant _ => 0x11
  | .mirror _ => 0x12
  | .slotWrite .. => 0x13
  | .sealRec .. => 0x14
  | .pair .. => 0x15
  | .hostRead .. => 0x23
  | .hostWrite .. => 0x24
  | .putAck _ => 0x30
  | .grantAck _ => 0x31
  | .mirrorAck _ => 0x32
  | .slotAck .. => 0x33
  | .reply _ => 0x38
  | .csrReply .. => 0x39
  | .event _ => 0x3C
  | .parityNak _ => 0x3D
  | .error .. => 0x3E
  | .raw bs => (bs.getD 15 0).toNat

/-- Message class by MTYPE: 0 control, 1 request, 2 response (Table 11.8). -/
def mtypeClass (m : Nat) : Nat := if m < 0x10 then 0 else if m < 0x30 then 1 else 2

/-- Bytes of a journal record with its payload, padded (R359). -/
def JRec.size (r : JRec) : Nat :=
  64 + roundUp (match r.payload with
    | .accept m => m.length
    | .prepare o => 24 * o.length
    | .commitLocal o => 24 * o.length
    | .commitGroup _ => 8
    | .abort _ => 8
    | .fail => 0
    | .decision _ _ => 32
    | .held _ _ => 16
    | .done _ d => 8 + d.length) 64

/-- LEN of a body. Where the manual gives a message no byte layout, the size of the fields it names. -/
def Body.len : Body → Nat
  | .ready .. => 16
  | .slip .. => 24
  | .vote _ => 32
  | .decision _ => 32
  | .put p => 32 + p.data.length
  | .grant _ => 32
  | .mirror r => r.size
  | .slotWrite _ _ _ _ d => d.length
  | .sealRec _ _ _ b => b.length
  | .pair .. => 8
  | .hostRead .. => 16
  | .hostWrite _ d => 8 + d.length
  | .putAck _ => 8
  | .grantAck _ => 8
  | .mirrorAck _ => 8
  | .slotAck _ _ l => 8 + 16 * l.length
  | .reply r => 32 + r.data.length
  | .csrReply .. => 16
  | .event _ => 64
  | .parityNak _ => 8
  | .error .. => 24
  | .raw bs => bitsOf (leAt bs 0 16) 75 63

/-- Bytes that a message occupies in flits: header, padded body, parity trailer (R328). -/
def msgBytes (len : Nat) : Nat :=
  let words := 4 + roundUp len 8 / 4
  16 + roundUp len 8 + roundUp (ceilDiv words 8) 8

/-- The CRC-32C of bytes, as four little-endian bytes. -/
def crcBytes (bs : List Byte) : List Byte := leBytes 4 (crc32c (bs.map (·.toNat)))

/-- Bytes filled up with zeros to a length. -/
def padTo (n : Nat) (bs : List Byte) : List Byte := bs ++ List.replicate (n - bs.length) 0

/-! ## Journal records (Tables 12.5 to 12.7) -/

/-- TYPE of a record (Table 12.6). -/
def JPayload.type : JPayload → Nat
  | .accept _ => 1
  | .prepare _ => 2
  | .commitLocal _ => 3
  | .commitGroup _ => 3
  | .abort _ => 4
  | .fail => 5
  | .decision _ _ => 6
  | .held _ _ => 7
  | .done _ _ => 8

/-- An output list entry (Table 12.7). -/
def OutEntry.bytes (o : OutEntry) : List Byte :=
  leBytes 4 o.handle ++ [toB o.role] ++ leBytes 3 0 ++ leBytes 4 o.extents ++ leBytes 4 o.charge ++ leBytes 8 o.mapAddr

/-- The body of a DECISION (Table 12.11). -/
def Decision.bytes (d : Decision) : List Byte :=
  leBytes 8 d.gid ++ leBytes 2 d.epoch ++ [toB d.kind, toB d.cause] ++ leBytes 2 d.first ++ leBytes 2 0 ++ leBytes 8 d.beat
    ++ leBytes 8 0

/-- The payload of a record. -/
def JPayload.bytes : JPayload → List Byte
  | .accept m => m
  | .prepare o => o.flatMap OutEntry.bytes
  | .commitLocal o => o.flatMap OutEntry.bytes
  | .commitGroup d => leBytes 8 d
  | .abort b => leBytes 8 b
  | .fail => []
  | .decision d _ => d.bytes
  | .held h o => leBytes 8 h ++ leBytes 8 o
  | .done r d => leBytes 8 r ++ d

/-- A record with its header and CRC, padded to 64 B (R359, Table 12.5). -/
def JRec.bytes (r : JRec) : List Byte :=
  let p := r.payload.bytes
  let head := leBytes 8 r.acceptNo ++ leBytes 8 r.seq ++ leBytes 8 r.identity ++ leBytes 8 r.beat ++ leBytes 8 r.req
    ++ [toB r.payload.type, toB r.code] ++ leBytes 2 r.epoch ++ [toB r.client, toB r.part] ++ leBytes 2 r.job
    ++ leBytes 4 p.length
  let crc := crcBytes (head ++ leBytes 12 0 ++ p)
  padTo r.size (head ++ crc ++ leBytes 8 0 ++ p)

/-! ## Log records (Tables 17.5 and 17.6) -/

/-- ADDR_KIND. -/
def LogAddr.kind : LogAddr → Nat
  | .none => 0
  | .object .. => 1
  | .stockpot .. => 2
  | .far .. => 3
  | .skillet _ => 4
  | .hostIO _ => 5
  | .ctrl _ => 6
  | .link .. => 7

/-- ADDRESS, as a number of 16 bytes. -/
def LogAddr.bits : LogAddr → Nat
  | .none => 0
  | .object h o => h % 2 ^ 32 + 2 ^ 32 * (o % 2 ^ 40)
  | .stockpot sl b row seg w => sl % 256 + 2 ^ 8 * (b % 256) + 2 ^ 16 * (row % 65536) + 2 ^ 32 * (seg % 256) + 2 ^ 40 * (w % 256)
  | .far ch sub rank page => ch % 256 + 2 ^ 8 * (sub % 2) + 2 ^ 9 * (rank % 2) + 2 ^ 32 * (page % 2 ^ 32)
  | .skillet a => a % 2 ^ 23
  | .hostIO a => a % 2 ^ 64
  | .ctrl o => o % 2 ^ 28
  | .link p l half name => p % 256 + 2 ^ 8 * (l % 256) + 2 ^ 16 * (half % 2 + 16 * (name % 16))

/-- Word `j` of a record, 0 to 7. -/
def LogRec.word (r : LogRec) (j : Nat) : Nat :=
  let e := r.ev
  match j with
  | 0 => r.beat
  | 1 =>
    r.pkgId % 2 ^ 14 + 2 ^ 16 * (e.die % 8 + 8 * (e.region % 4) + 32 * (e.engine % 8)) + 2 ^ 24 * (e.core % 256) + 2 ^ 32 * (e.code % 256)
      + 2 ^ 40 * (e.addr.kind + 8 * b2n r.sent + 16 * b2n r.suppressedBefore) + 2 ^ 48 * (e.unit % 256) + 2 ^ 56 * (e.inst % 256)
  | 2 => e.addr.bits % 2 ^ 64
  | 3 => e.addr.bits / 2 ^ 64
  | 4 => r.seq
  | 5 => e.sub % 256 + 2 ^ 8 * (e.cause % 256) + 2 ^ 16 * (e.pkg % 2 ^ 14) + 2 ^ 32 * (e.pc % 2 ^ 19)
  | 6 => e.acceptNo
  | _ => e.extra

/-! ## Parity (R285, R328) -/

/-- The even-parity bit of a word: the bit that makes the number of ones even. -/
def evenParity (w : Nat) : Nat := popc w 32 % 2

/-- The words of 32 bits of bytes, lowest byte first. -/
def wordsOf : Nat → List Byte → List Nat
  | 0, _ => []
  | n + 1, bs => leAt bs 0 4 :: wordsOf n (bs.drop 4)

/-- Bits [60:59] of a header set to 0 (R328). -/
def maskHeader (bs : List Byte) : List Byte := bs.mapIdx fun i b => if i = 7 then toB (b.toNat - 8 * bitsOf b.toNat 4 3) else b

/-- The parity trailer of a header and its padded body (R328): a bit for each word, least significant first, padded to a
multiple of 8 bytes. -/
def trailerOf (bs : List Byte) : List Byte :=
  let ws := wordsOf (bs.length / 4) (maskHeader bs)
  leBytes (roundUp (ceilDiv ws.length 8) 8) (ws.foldr (fun w acc => evenParity w + 2 * acc) 0)

/-- The parity trailer of a whole message passes (R329). -/
def trailerOk (m : List Byte) : Bool :=
  let n := 16 + roundUp (bitsOf (leAt m 0 16) 75 63) 8
  (m.drop n).take (trailerOf (m.take n)).length == trailerOf (m.take n)

/-! ## Bodies of messages (Table 11.8) -/

/-- An arrival's header and data (Table 4.15). -/
def PutArrival.bytes (p : PutArrival) : List Byte :=
  leBytes 8 p.identity ++ leBytes 2 p.epoch ++ [toB (p.win % 16 + 128 * b2n p.mode), 0] ++ leBytes 4 p.offset
    ++ leBytes 4 p.data.length ++ leBytes 2 p.index ++ leBytes 10 0 ++ p.data

/-- The body of a VOTE (Table 12.11). -/
def Vote.bytes (v : Vote) : List Byte :=
  leBytes 8 v.gid ++ leBytes 2 v.epoch ++ [toB v.kind, toB v.cause] ++ leBytes 2 v.voter ++ leBytes 2 0 ++ leBytes 8 v.restart
    ++ leBytes 4 v.rerunDelay ++ leBytes 4 0

/-- The body of a REPLY (Table 12.4). -/
def Reply.bytes (r : Reply) : List Byte :=
  [toB r.kind, toB r.code, toB (min 255 r.attempts), toB (b2n r.limit + 2 * b2n r.dup)]
    ++ leBytes 4 (putBits r.sub 8 0 + putBits r.cause 8 8 + putBits r.pkg 14 16) ++ leBytes 8 r.req ++ leBytes 8 r.acceptNo
    ++ leBytes 8 r.result ++ r.data

/-- The 64 bytes of a log record (Table 17.5). -/
def LogRec.bytes (r : LogRec) : List Byte := (List.range 8).flatMap fun j => leBytes 8 (r.word j)

/-- The answer to an arrival or to a credit, as a number. -/
def PutResult.code : PutResult → Nat
  | .written => 0
  | .stale => 1
  | .violation c => 256 + c

/-- The answer to a credit, as a number. -/
def GrantResult.code : GrantResult → Nat
  | .accepted => 0
  | .dropped => 1
  | .full => 2

/-- What a body says beside the bytes that the manual lays out. -/
def Body.fields : Body → List Nat
  | .ready g k => [g, k]
  | .slip g k r c => [g, k, r, c]
  | .grant g => [g.identity, g.epoch, g.win, g.winEpoch, g.offset, g.length]
  | .pair p f q n => [p, f, q, n]
  | .hostRead a n => [a, n]
  | .hostWrite a d => a :: d.map (·.toNat)
  | .putAck r => [r.code]
  | .grantAck r => [r.code]
  | .mirrorAck ok => [b2n ok]
  | .slotAck c sub l => c :: sub :: l.flatMap fun x => [x.1, x.2.1, x.2.2]
  | .csrReply c v => [c, v.toNat]
  | .parityNak t => [t]
  | .error c t => [c, t]
  | _ => []

/-- The bytes of a body. Where the manual gives a message no byte layout its bytes are free (assumption 59). -/
def Body.bytes (b : Body) : List Byte :=
  match b with
  | .vote v => v.bytes
  | .decision d => d.bytes
  | .put p => p.bytes
  | .mirror r => r.bytes
  | .slotWrite _ _ _ _ d => d
  | .sealRec _ _ _ d => d
  | .reply r => r.bytes
  | .event r => r.bytes
  | b => (List.range b.len).map (Config.bodyByte b.mtype b.fields)

/-! ## Messages (R328, R336, Table 11.6) -/

/-- ARG of a message: the box, REM and the dimension of arrival of a broadcast (R336); 0 otherwise (DESIGN CHOICE, assumption
59). -/
def Msg.arg (m : Msg) : Nat :=
  match m.box, m.body with
  | some (lo, hi), _ => putBits hi 14 28 + putBits lo 14 14 + putBits m.rem 4 10 + putBits m.dim 2 8
  | none, .slotWrite p slot page gen _ => putBits p 4 38 + putBits slot 1 37 + putBits page 25 12 + putBits gen 12 0
  | none, _ => 0

/-- The header of a message, as a number of 128 bits. -/
def Msg.header (m : Msg) : Nat :=
  let t := m.body.mtype
  putBits t 8 120 + putBits m.dst 14 106 + putBits m.src 14 92 + putBits m.dunit 8 84 + putBits m.sunit 8 76
    + putBits m.body.len 13 63 + putBits (mtypeClass t) 2 61 + putBits (b2n m.dlc) 1 60 + putBits (b2n m.dir) 1 59
    + putBits (b2n m.box.isSome) 1 58 + putBits m.tag 16 42 + m.arg

/-- The bytes of two strings added without carry. -/
def xorBytes (a b : List Byte) : List Byte := a.zipWith (· ^^^ ·) b

/-- A message as it was received, with DIR, DLC and the ARG of a broadcast rewritten: a trailer that failed goes on failing. -/
def Msg.relayed (m : Msg) (bs : List Byte) : List Byte :=
  let h := leAt bs 0 16
  let fix := putBits (b2n m.dlc) 1 60 + putBits (b2n m.dir) 1 59
  let low := if m.box.isSome then m.arg else bitsOf h 41 0
  let h' := bitsOf h 127 61 * 2 ^ 61 + fix + putBits (bitsOf h 58 42) 17 42 + low
  let n := 16 + roundUp (bitsOf h 75 63) 8
  let new := leBytes 16 h' ++ (bs.take n).drop 16
  new ++ xorBytes (bs.drop n) (xorBytes (trailerOf (bs.take n)) (trailerOf new))

/-- A message as bytes: header, padded body, parity trailer (R328). -/
def Msg.wire (m : Msg) : List Byte :=
  match m.body with
  | .raw bs => m.relayed bs
  | b =>
    let front := leBytes 16 m.header ++ padTo (roundUp b.len 8) b.bytes
    front ++ trailerOf front

/-! ## Flits as they are sent (R315 to R317) -/

/-- A flit before its CRC and parity: what Table 11.3 names, and the payload. -/
structure Flit where
  ftype : Nat
  h : FlitHdr := {}
  seq : Nat := 0
  mstart : Nat := 0
  pvc : Nat := 0
  payload : List Byte := []
deriving DecidableEq, Repr, Inhabited

/-- The header of a flit (Table 11.3), as a number of 64 bits. -/
def Flit.header (f : Flit) : Nat :=
  putBits f.ftype 4 60 + putBits f.seq 12 48 + putBits f.h.ack 12 36 + putBits (b2n f.h.ackv) 1 35 + putBits f.h.cvc 3 32
    + putBits f.h.ccount 8 24 + putBits f.mstart 8 16 + putBits f.pvc 3 13

/-- A number as bytes, most significant first. -/
def beBytes (n v : Nat) : List Byte := (leBytes n v).reverse

/-- The 256 bytes of a flit (Table 11.2): header, payload, CRC and FEC parity. -/
def Flit.wire (f : Flit) : List Byte :=
  let front := beBytes 8 f.header ++ padTo 224 (f.payload.take 224)
  let data := front ++ beBytes 8 (crc64 (front.map (·.toNat)))
  let par := fun k => rsParity (everyOther k (data.map (·.toNat)))
  data ++ (List.range 16).map fun i => toB ((par (i % 2)).getD (i / 2) 0)

/-- The payload of a NAK (Table 11.4). -/
def nakPayload (seq : Nat) : List Byte := leBytes 2 (seq % 4096)

/-- The payload of an IDENT flit (R339). -/
def IdentFlit.payload (i : IdentFlit) : List Byte :=
  leBytes 2 (i.pkg % 2 ^ 14) ++ [toB i.port, toB (b2n i.role)] ++ leBytes 2 (i.rings % 2 ^ 14) ++ [toB i.mode, toB (b2n i.verdict + 2 * b2n i.reject)]

/-- The payload of an ECHO flit (R340): the sender's cycle count, and in one that is returned the cycles that it was held. The
manual gives no byte layout (PRESUMED, assumption 59). -/
def echoPayload (returned : Bool) (count hold : Nat) : List Byte := leBytes 8 count ++ leBytes 8 hold ++ [toB (b2n returned)]

/-- The payload of a MARKER flit (Table 11.12). -/
def markerPayload (value depth : Nat) (hold : Bool) (d : Nat) : List Byte :=
  leBytes 6 value ++ [toB (depth % 8 + 8 * b2n hold), 0] ++ leBytes 2 (d % 1024)

/-- The payload of a KEEPALIVE flit (Table 11.13). -/
def KeepFlit.payload (k : KeepFlit) : List Byte :=
  leBytes 2 (k.pkg % 2 ^ 14) ++ [toB k.port, toB k.st] ++ leBytes 4 0 ++ leBytes 8 k.fp ++ leBytes 8 k.beat

end Sys2Proof.Machine
end

