-- ==== Sys2Proof/Machine/Ops.lean ====
section
/-!
DEFINITION. The named operations over the state that every block shares: accessors, free values, counters, the log
ring and its events, routing and sending of messages, and the risk estimate.
-/

namespace Sys2Proof.Machine

open Sys2Proof

/-- What a command answers. -/
abbrev Answer := Host.Outcome State Fault Refusal

/-! ## Accessors -/

/-- Core `n`. -/
def State.core (s : State) (n : Nat) : CoreSt := vget s.cores n
/-- The state with core `n` replaced. -/
def State.setCore (s : State) (n : Nat) (c : CoreSt) : State := { s with cores := vset s.cores n c }
/-- The state with core `n` changed. -/
def State.modCore (s : State) (n : Nat) (f : CoreSt → CoreSt) : State := s.setCore n (f (s.core n))
/-- C-die `d`. -/
def State.die (s : State) (d : Nat) : DieSt := vget s.dies d
/-- The state with C-die `d` changed. -/
def State.modDie (s : State) (d : Nat) (f : DieSt → DieSt) : State := { s with dies := vmod s.dies d f }
/-- Region block `r` = 4d + g. -/
def State.region (s : State) (r : Nat) : Region := vget s.regions r
/-- The state with region block `r` changed. -/
def State.modRegion (s : State) (r : Nat) (f : Region → Region) : State := { s with regions := vmod s.regions r f }
/-- Port `p`. -/
def State.port (s : State) (p : Nat) : Port := vget s.ports p
/-- The state with port `p` changed. -/
def State.modPort (s : State) (p : Nat) (f : Port → Port) : State := { s with ports := vmod s.ports p f }
/-- The state with die-to-die link `l` changed. -/
def State.modLink (s : State) (l : Nat) (f : D2D → D2D) : State := { s with links := vmod s.links l f }
/-- The state with the beat unit changed. -/
def State.modBeat (s : State) (f : BeatSt → BeatSt) : State := { s with beat := f s.beat }
/-- The state with the Tongs changed. -/
def State.modTongs (s : State) (f : TongsSt → TongsSt) : State := { s with tongs := f s.tongs }
/-- The state with the command unit changed. -/
def State.modCmdU (s : State) (f : CmdSt → CmdSt) : State := { s with cmd := f s.cmd }
/-- The state with the Lid changed. -/
def State.modLid (s : State) (f : LidSt → LidSt) : State := { s with lid := f s.lid }
/-- The state with the integrity bookkeeping changed. -/
def State.modInteg (s : State) (f : IntegritySt → IntegritySt) : State := { s with integ := f s.integ }
/-- The state with power, reset and boot changed. -/
def State.modPower (s : State) (f : PowerSt → PowerSt) : State := { s with power := f s.power }

/-- The beat count (R35). -/
def State.now (s : State) : Nat := s.beat.count
/-- Beat edges since the package reset; timers count these (R52). -/
def State.edge (s : State) : Nat := s.beat.edge

/-- Die, region within the die and slice of core `n` (R13). -/
def coreDie (n : Nat) : Nat := n / 48
/-- Region of core `n` within its die. -/
def coreRegion (n : Nat) : Nat := n / 12 % 4
/-- Region block, and own Stockpot slice, of core `n`. -/
def coreSlice (n : Nat) : Nat := n / 12
/-- Die of a slice. -/
def sliceDie (r : Nat) : Nat := r / 4

/-- Core `n` is retired (R14). -/
def State.retired (s : State) (n : Nat) : Bool := s.integ.retired.contains n

/-- Core `n` is in service (R351). -/
def State.inService (s : State) (n : Nat) : Bool :=
  n < 192 && !s.retired n && (s.die (coreDie n)).st = .active

/-- The next free-value occasion, and the state that has drawn it. -/
def State.fresh (s : State) : Nat × State := (s.freeCtr, { s with freeCtr := s.freeCtr + 1 })

/-- A fresh 16-bit message tag (Table 11.6), and the state that has given it. -/
def State.freshTag (s : State) : Nat × State := (s.nextTag, { s with nextTag := (s.nextTag + 1) % 65536 })

/-! ## Counters -/

/-- BEAT_CNT_k raised by 1. -/
def State.beatCnt (s : State) (k : Nat) : State := s.modBeat fun b => { b with cnt := bump b.cnt k }
/-- TNG_CNT_k raised by `n`. -/
def State.tngCnt (s : State) (k n : Nat) : State := s.modTongs fun t => { t with cnt := bumpBy t.cnt k n }
/-- CMD_CNT_k raised by 1. -/
def State.cmdCnt (s : State) (k : Nat) : State := s.modCmdU fun c => { c with cnt := bump c.cnt k }
/-- CMD_CLI_c_k raised by `n`. -/
def State.cliCnt (s : State) (c k n : Nat) : State :=
  s.modCmdU fun u => { u with cli := vmod u.cli c fun v => bumpBy v k n }
/-- LID_CNT_k raised by `n`. -/
def State.lidCnt (s : State) (k n : Nat) : State := s.modLid fun l => { l with cnt := bumpBy l.cnt k n }
/-- HLT_ICNT_k raised by `n`. -/
def State.icnt (s : State) (k n : Nat) : State := s.modInteg fun i => { i with icnt := bumpBy i.icnt k n }
/-- PWR_CNT_k raised by `n`. -/
def State.pwrCnt (s : State) (k n : Nat) : State := s.modPower fun p => { p with cnt := bumpBy p.cnt k n }
/-- FJL_CNT_k of port `p` raised by `n`. -/
def State.fjlCnt (s : State) (p k n : Nat) : State := s.modPort p fun q => { q with cnt := bumpBy q.cnt k n }
/-- HLT_RGN_CNT_k of region `r` raised by `n`. -/
def State.rgnCnt (s : State) (r k n : Nat) : State := s.modRegion r fun q => { q with cnt := bumpBy q.cnt k n }
/-- SEQ_CNT_k of a core raised by `n`. -/
def CoreSt.seqBump (c : CoreSt) (k n : Nat) : CoreSt := { c with seqCnt := bumpBy c.seqCnt k n }
/-- XCH_CNT_k of a core raised by `n`. -/
def CoreSt.xchBump (c : CoreSt) (k n : Nat) : CoreSt := { c with xchCnt := bumpBy c.xchCnt k n }
/-- LDL_CNT_k of a core raised by `n`. -/
def CoreSt.ldlBump (c : CoreSt) (k n : Nat) : CoreSt :=
  { c with sm := { c.sm with ldlCnt := bumpBy c.sm.ldlCnt k n } }
/-- COL_CNT_k of a core raised by `n`. -/
def CoreSt.colBump (c : CoreSt) (k n : Nat) : CoreSt :=
  { c with sm := { c.sm with colCnt := bumpBy c.sm.colCnt k n } }

/-! ## Package identity and the torus (R18 to R20, R313) -/

/-- The package ID that log records carry: 0x3FFF while it is not valid (Table 17.5, R346). -/
def State.pkgIdField (s : State) : Nat := if s.cfg.valid then s.cfg.pkgId else 0x3FFF

/-- Coordinate `k` of a package ID: a, b, c, d for 0 to 3 (R18). -/
def coord (id k : Nat) : Nat :=
  match k with
  | 0 => bitsOf id 13 10
  | 1 => bitsOf id 9 6
  | 2 => bitsOf id 5 3
  | _ => bitsOf id 2 0

/-- The package ID with coordinate `k` replaced. -/
def withCoord (id k x : Nat) : Nat :=
  let c := fun j => if j = k then x else coord id j
  c 0 * 1024 + c 1 * 64 + c 2 * 8 + c 3

/-- The size of ring `k`. -/
def State.ringSize (s : State) (k : Nat) : Nat :=
  match k with
  | 0 => s.cfg.na + 1
  | 1 => s.cfg.nb + 1
  | 2 => s.cfg.nc + 1
  | _ => 8

/-- Fabric port of dimension `k`, direction (true for −) and copy `j` (R313). -/
def fabricPort (k : Nat) (minus : Bool) (j : Nat) : Nat := 4 * k + 2 * b2n minus + j

/-! ## Transmitting on a port (R315, R319, R325, R326) -/

/-- The port carries flits: ACTIVE or MISMATCH. -/
def Port.carries (p : Port) : Bool := p.st == .active || p.st == .mismatch

/-- Buffer sizes of the six channels (Table 11.5). -/
def vcSlots : Vector Nat 6 := #v[16, 16, 96, 96, 96, 96]

/-- Slots of channel `v` of the input buffers in use: a slot is freed when every message with bytes in its flit has left the port
(R325; DEDUCED, assumption 59). -/
def Port.slotsUsed (p : Port) (v : Nat) : Nat :=
  let span := fun a b => (List.range (b + 1 - a)).map fun i => a + i
  let whole := (p.rxMsgs.filter fun m => m.vc == v).flatMap fun m => span m.first m.last
  let rest := if (vget p.rxBytes v).isEmpty then [] else span (vget p.rxFrom v) (vget p.rxCount v - 1)
  (whole ++ rest).eraseDups.length

/-- Freed slots of channel `v` whose credits have not been returned (R325). -/
def Port.owed (p : Port) (v : Nat) : Nat := vget p.rxCount v - p.slotsUsed v - vget p.rxReturned v

/-- The channel that is owed most credits, the lowest of equals (R325 names none; DESIGN CHOICE, assumption 59). -/
def Port.owedVc (p : Port) : Nat :=
  (List.range 6).foldl (fun v w => if p.owed v < p.owed w then w else v) 0

/-- A flit is sent: it carries the ACK of the last DATA flit received in order and credits of one channel (R315, R325). -/
def Port.emit (p : Port) (ftype : Nat) (payload : List Byte) (seq mstart pvc : Nat := 0) : Port :=
  let v := p.owedVc
  let n := min 255 (p.owed v)
  let h : FlitHdr := { ack := p.rxLast.getD 0, ackv := p.rxLast.isSome, cvc := if n = 0 then 0 else v, ccount := n }
  { p with
    sent := p.sent ++ [Flit.wire { ftype := ftype, h := h, seq := seq, mstart := mstart, pvc := pvc, payload := payload }]
    rxReturned := vmod p.rxReturned v fun x => x + n
    ackTold := p.rxLast }

/-- A flit of a type without SEQ is sent on a port. -/
def State.emit (s : State) (p ftype : Nat) (payload : List Byte) : State := s.modPort p fun q => q.emit ftype payload

/-- The port has an ACK or a credit to tell. -/
def Port.news (p : Port) : Bool := p.ackTold != p.rxLast || decide (0 < p.owed p.owedVc)

/-- IDLE flits tell what no other flit has told (R315, R325). -/
def Port.idle (p : Port) : Port := if p.carries then iter (fun q => if q.news then q.emit 0 [] else q) 6 p else p

/-- Takes up to `room` bytes, at offset `pos` of a payload, from the front of a channel's waiting messages: the bytes, MSTART
(0xFF when no message starts), and what is left (R328). -/
def takeBytes : Nat → Nat → List (Bool × List Byte) → List Byte × Nat × List (Bool × List Byte)
  | _, _, [] => ([], 0xFF, [])
  | room, pos, (new, m) :: ms =>
    let start := if new then pos else 0xFF
    if m.length ≤ room then
      let r := takeBytes (room - m.length) (pos + m.length) ms
      (m ++ r.1, min start r.2.1, r.2.2)
    else if room = 0 then ([], 0xFF, (new, m) :: ms)
    else (m.take room, start, (false, m.drop room) :: ms)

/-- The channel that the next DATA flit is taken from, if one has bytes and a credit (R326). -/
def nextVc (p : Port) : Option Nat :=
  let ok := fun v => !(vget p.waiting v).isEmpty && 0 < vget p.credits v
  let pick := fun c =>
    let other := 1 - vget p.lastDl c
    if ok (2 * c + other) then some (2 * c + other)
    else if ok (2 * c + (1 - other)) then some (2 * c + (1 - other)) else none
  match pick 0 with
  | some v => some v
  | none =>
    match pick 2, pick 1 with
    | some r, some q => if 7 ≤ p.rspRun then some q else some r
    | some r, none => some r
    | none, q => q

/-- The response slots granted in a row while a request waited, after a slot for channel `v` (R326): a control slot leaves the
count as it stands. -/
def Port.runAfter (p : Port) (v : Nat) : Nat :=
  let reqWaits := !(vget p.waiting 2).isEmpty || !(vget p.waiting 3).isEmpty
  if v / 2 = 2 then (if reqWaits then p.rspRun + 1 else 0) else if v / 2 = 1 then 0 else p.rspRun

/-- One DATA flit formed and sent, or none (R319, R325). -/
def formFlit (p : Port) : Option Port :=
  if 128 ≤ p.unacked.length then none
  else match nextVc p with
    | none => none
    | some v =>
      let r := takeBytes 224 0 (vget p.waiting v)
      let q : Port := { p with
        waiting := vset p.waiting v r.2.2
        credits := vset p.credits v (vget p.credits v - 1)
        unacked := p.unacked ++ [{ seq := p.txSeq, vc := v, mstart := r.2.1, payload := r.1 }]
        txSeq := (p.txSeq + 1) % 4096
        rspRun := p.runAfter v
        lastDl := vset p.lastDl (v / 2) (v % 2)
        cnt := bump p.cnt 0 }
      some (q.emit 1 r.1 p.txSeq r.2.1 v)

/-- DATA flits formed while credits and the replay buffer allow. -/
def pumpPort : Nat → Port → Port
  | 0, p => p
  | n + 1, p =>
    match formFlit p with
    | some p' => pumpPort n p'
    | none => p

/-- The flits that the waiting bytes of a port can still need. -/
def Port.pumpFuel (p : Port) : Nat :=
  1 + sumL (p.waiting.toList.map fun l => sumL (l.map fun m => m.2.length / 224 + 1))

/-- Flit slots of a port of `w` lanes before beat edge `e`: a slot lasts 1,024 ÷ w UI of 17/640 of a cycle (R315). -/
def slotsBefore (w e : Nat) : Nat := e * 40 * w / 17

/-- `n` beats from edge `e` on: credits and ACKs go out, and each flit slot that lack of a credit or a full replay buffer holds back
is counted (R319, R325; FJL_CNT_15). -/
def Port.beats (p : Port) (e n : Nat) : Port :=
  let p := p.idle
  if p.carries && p.widthTo.isNone && !(p.waiting.toList.all (·.isEmpty)) && (formFlit p).isNone then
    let w := popc p.active 8
    { p with cnt := bumpBy p.cnt 15 (slotsBefore w (e + n) - slotsBefore w e) }
  else p

/-- The port transmits what waits, when it carries DATA flits: ACTIVE, or MISMATCH for what R344 lets pass, and not
in a width change (R323). -/
def State.pump (s : State) (p : Nat) : State :=
  let q := s.port p
  if (q.st = .active ∨ q.st = .mismatch) ∧ q.widthTo = none then
    s.modPort p fun q => pumpPort q.pumpFuel q
  else s

/-- A message handed to a port's transmitter. -/
def State.transmit (s : State) (p : Nat) (m : Msg) : State :=
  let vc := 2 * mtypeClass m.body.mtype + b2n m.dlc
  let s := { s with outbox := s.outbox ++ [OutItem.msg p m] }
  (s.modPort p fun q =>
    { q with waiting := vmod q.waiting vc fun l => l ++ [(true, m.wire)] }).pump p

/-- The pseudo-port of a message between units of this package, which crosses no link. -/
def innerPort : Nat := 17

/-- A message to another unit of this package. -/
def State.sendInner (s : State) (m : Msg) : State := { s with outbox := s.outbox ++ [OutItem.msg innerPort m] }

/-- A message to the host. With the host port not ACTIVE it waits in the port (R321). -/
def State.sendHost (s : State) (sunit tag : Nat) (b : Body) : State :=
  s.transmit 16 { body := b, src := s.pkgIdField, dunit := 0xFF, sunit := sunit, tag := tag }

/-! ## The log ring (R491 to R497) -/

/-- Codes that are sent as an EVENT whatever the mask (R497). -/
def alwaysSent (code : Nat) : Bool := [0x72, 0x77, 0x78, 0x7B, 0x7C, 0x7D, 0x89].contains code

/-- HLT_EVT_MASK names the code. -/
def LogSt.masked (l : LogSt) (code : Nat) : Bool := bitOf (vget l.mask (code / 64)).toNat (code % 64)

/-- The log in the interval of 65,536 beats that beat `now` lies in (R495). -/
def LogSt.roll (l : LogSt) (now : Nat) : LogSt :=
  if l.interval = now / 65536 then l else { l with interval := now / 65536, written := [] }

/-- The record is not written: LIMIT records of its code are in the interval (R495). -/
def LogSt.blocks (l : LogSt) (code : Nat) : Bool :=
  l.limit != 0 && !alwaysSent code && decide (l.limit ≤ alGet l.written code 0)

/-- A code occurs: it is counted, and its record is written to the ring or suppressed (R491, R495, R496). A written
record is sent as an EVENT when R497 says so and the host port is ACTIVE. -/
def State.logEv (s : State) (e : LogEv) : State :=
  let l := s.log.roll s.now
  let l := { l with codeCnt := bump l.codeCnt e.code }
  if l.blocks e.code then
    { s with log := { l with
        suppressed := satAdd 32 l.suppressed 1
        hidden := if l.hidden.contains e.code then l.hidden else e.code :: l.hidden } }
  else
    let sent := (alwaysSent e.code || l.masked e.code) && decide ((s.port 16).st = .active)
    let r : LogRec :=
      { ev := e, beat := s.now, pkgId := s.pkgIdField, seq := l.next, sent := sent,
        suppressedBefore := l.hidden.contains e.code }
    let s := { s with log := { l with
        ring := (r :: l.ring).take 4096
        next := l.next + 1
        overwritten := if 4096 ≤ l.next then satAdd 32 l.overwritten 1 else l.overwritten
        written := alSet l.written e.code (alGet l.written e.code 0 + 1)
        hidden := l.hidden.filter (· != e.code) } }
    if sent then s.sendHost 0xFF 0 (.event r) else s

/-- A log event of a core's unit: queue code `q` of core `n` (Table 17.5). -/
def coreEv (n q code : Nat) : LogEv :=
  { code := code, die := coreDie n, region := coreRegion n, engine := q, core := n }

/-- A log event of a region's slice controller. -/
def sliceEv (r code : Nat) : LogEv := { code := code, die := sliceDie r, region := r % 4 }

/-- A log event of a Fjarner port, with the port in the detail field (R348). -/
def portEv (p code : Nat) : LogEv :=
  { code := code, unit := 0xF4, inst := p, addr := .link p 0xFF 0 0, sub := p }

/-! ## Routing (R332 to R336, R505) -/

/-- The first dimension from `k` on in which two packages differ. -/
def firstDim (a b : Nat) : Nat → Option Nat
  | 0 => if coord a 0 ≠ coord b 0 then some 0 else if coord a 1 ≠ coord b 1 then some 1
         else if coord a 2 ≠ coord b 2 then some 2 else if coord a 3 ≠ coord b 3 then some 3 else none
  | 1 => if coord a 1 ≠ coord b 1 then some 1
         else if coord a 2 ≠ coord b 2 then some 2 else if coord a 3 ≠ coord b 3 then some 3 else none
  | 2 => if coord a 2 ≠ coord b 2 then some 2 else if coord a 3 ≠ coord b 3 then some 3 else none
  | _ => if coord a 3 ≠ coord b 3 then some 3 else none

/-- Direction − on entering a ring of size `n` at coordinate `x` for `dst` (R332). -/
def ringMinus (n x dst : Nat) : Bool :=
  let d := (dst + n - x) % n
  if 2 * d < n then false else if n < 2 * d then true else x % 2 == 1

/-- The hop from coordinate `x` crosses the dateline of a ring of size `n` (R333). -/
def crossesDateline (n x : Nat) (minus : Bool) : Bool := if minus then x == 0 else x + 1 == n

/-- The port of a direction that a message leaves by: the ACTIVE one with more credits, ties to copy 0 (R332). -/
def State.outPort (s : State) (k : Nat) (minus : Bool) (vc : Nat) : Option Nat :=
  let p0 := fabricPort k minus 0
  let p1 := fabricPort k minus 1
  let a0 := (s.port p0).st = .active
  let a1 := (s.port p1).st = .active
  if a0 ∧ a1 then
    if vget (s.port p0).credits vc < vget (s.port p1).credits vc then some p1 else some p0
  else if a0 then some p0 else if a1 then some p1 else none

/-- A port of the direction is MISMATCH (R334). -/
def State.dirMismatch (s : State) (k : Nat) (minus : Bool) : Bool :=
  (s.port (fabricPort k minus 0)).st = .mismatch || (s.port (fabricPort k minus 1)).st = .mismatch

/-- Where a message goes next. -/
inductive Hop where
  | deliver
  | to (port : Nat) (k : Nat) (minus : Bool) (dlc : Bool)
  | fail (code : Nat) (k : Nat) (minus : Bool)
  | invalid
deriving DecidableEq, Repr, Inhabited

/-- DST names a coordinate outside its ring (R505). -/
def State.dstInvalid (s : State) (dst : Nat) : Bool :=
  (List.range 4).any fun k => decide (s.ringSize k ≤ coord dst k)

/-- The next hop of a message for `dst` at this package (R332 to R334, R505). `cur` holds the dimension, direction and
dateline class of the ring that it is on, when it arrived on one. An ERROR message also crosses a MISMATCH port (R344). -/
def State.nextHop (s : State) (dst cls : Nat) (isError : Bool) (cur : Option (Nat × Bool × Bool)) : Hop :=
  let me := s.cfg.pkgId
  if s.dstInvalid dst then .invalid
  else match firstDim me dst 0 with
    | none => .deliver
    | some k =>
      let n := s.ringSize k
      let x := coord me k
      let onRing := match cur with
        | some (k', m, d) => if k' = k then some (m, d) else none
        | none => none
      let minus := match onRing with
        | some (m, _) => m
        | none => ringMinus n x (coord dst k)
      let dlcOf := fun m => (match onRing with
        | some (_, d) => d
        | none => false) || crossesDateline n x m
      let port := fun m =>
        let vc := 2 * cls + b2n (dlcOf m)
        match s.outPort k m vc with
        | some p => some p
        | none =>
          if isError && s.dirMismatch k m then
            some (if (s.port (fabricPort k m 0)).st = .mismatch then fabricPort k m 0 else fabricPort k m 1)
          else none
      match port minus with
      | some p => .to p k minus (dlcOf minus)
      | none =>
        if s.dirMismatch k minus then .fail 0x72 k minus
        else match onRing, port (!minus) with
          | none, some p => .to p k (!minus) (dlcOf (!minus))
          | _, _ => .fail 0x61 k minus

/-- An ERROR answered to the source of a message: to its unit here, or to its package (R334). An ERROR is never
answered with another ERROR. -/
def State.answerErrorHere (s : State) (code mtype dunit tag : Nat) : State :=
  if mtype = 0x3E then s
  else s.sendInner { body := .error code mtype, src := s.cfg.pkgId, dst := s.cfg.pkgId, dunit := dunit, tag := tag }

/-- A message of this package sent to package `m.dst`: within the package, on a fabric port, or answered with an ERROR
where no port serves it (R332 to R334, R505). -/
def State.sendFabric (s : State) (m : Msg) : State :=
  let m := { m with src := s.cfg.pkgId }
  let mt := m.body.mtype
  match s.nextHop m.dst (mtypeClass mt) (mt == 0x3E) none with
  | .deliver => s.sendInner m
  | .to p k minus dlc => s.transmit p { m with dlc := dlc, dir := minus, dim := k }
  | .fail code k minus =>
    (s.fjlCnt (fabricPort k minus 0) 14 1).answerErrorHere code mt m.sunit m.tag
  | .invalid =>
    let s := s.logEv { code := 0x6A, unit := 0xF4, pkg := m.dst }
    if mtypeClass mt = 1 then s.answerErrorHere 0x6A mt m.sunit m.tag else s

/-- Hops up and down in dimension `k` from this package over a box (R336). -/
def State.spread (s : State) (lo hi k : Nat) : Nat × Nat :=
  let n := s.ringSize k
  let x := coord s.cfg.pkgId k
  if (coord hi k + 1) % n = coord lo k % n then (n / 2, (n + 1) / 2 - 1)
  else ((coord hi k + n - x) % n, (x + n - coord lo k) % n)

/-- One copy of a broadcast forwarded in dimension `k` with `rem` hops left; a copy that meets no ACTIVE port is lost
(R336). `dlc` is the dateline class it holds on the ring. -/
def State.forwardBcast (s : State) (m : Msg) (k : Nat) (minus : Bool) (rem : Nat) (dlc : Bool) : State :=
  let dlc := dlc || crossesDateline (s.ringSize k) (coord s.cfg.pkgId k) minus
  match s.outPort k minus (b2n dlc) with
  | some p => s.transmit p { m with rem := rem, dim := k, dir := minus, dlc := dlc }
  | none => s

/-- The copies that this package sends of a broadcast it starts (`dimIn = none`) or receives (R336). -/
def State.spreadBcast (s : State) (m : Msg) (arrival : Option (Nat × Bool × Nat × Bool)) : State :=
  match m.box with
  | none => s
  | some (lo, hi) =>
    let first := match arrival with
      | none => 0
      | some (k, _, _, _) => k + 1
    let s := match arrival with
      | some (k, minus, rem, dlc) => if 0 < rem then s.forwardBcast m k minus (rem - 1) dlc else s
      | none => s
    (List.range 4).foldl (fun s k =>
      if k < first then s
      else
        let ud := s.spread lo hi k
        let s := if 0 < ud.1 then s.forwardBcast m k false (ud.1 - 1) false else s
        if 0 < ud.2 then s.forwardBcast m k true (ud.2 - 1) false else s) s

/-- A broadcast over a box that this package starts (R336). -/
def State.broadcast (s : State) (lo hi : Nat) (b : Body) : State :=
  s.spreadBcast { body := b, src := s.cfg.pkgId, dunit := 0xF1, sunit := 0xF1, box := some (lo, hi) } none

/-! ## The risk estimate (R403, R404) -/

/-- The risk estimate rises by weight `i`, saturating; crossing HIGH upward sends an EVENT with code 0x7D. -/
def State.addRisk (s : State) (i : Nat) : State :=
  let l := s.lid
  let w := bitsOf l.weights.toNat (8 * i + 7) (8 * i)
  let r := min 1023 (l.risk + w)
  let s' := { s with lid := { l with risk := r } }
  if l.risk < l.high ∧ l.high ≤ r then s'.logEv { code := 0x7D, unit := 0xF3 } else s'

/-- A parity reread that passed: each 64 of them are one event of risk input 0 (Table 13.8). -/
def State.riskReread (s : State) : State :=
  if 64 ≤ s.lid.riskReads + 1 then (s.modLid fun l => { l with riskReads := 0 }).addRisk 0
  else s.modLid fun l => { l with riskReads := l.riskReads + 1 }

end Sys2Proof.Machine
end

