-- ==== Sys2Proof/Machine/Journal.lean ====
section
/-!
DEFINITION. Shared operations of the command layer: commands and their replies, the journal and its mirror, the vote
tree, votes, stopping a core, and raising a fault (R93, R356 to R372).
-/

namespace Sys2Proof.Machine

open Sys2Proof

/-! ## Commands -/

/-- The accepted command with an acceptance number. -/
def State.getCmd (s : State) (a : Nat) : Option Cmd := s.cmd.cmds.find? fun c => c.acceptNo == a

/-- The state with an accepted command changed. -/
def State.modCmd (s : State) (a : Nat) (f : Cmd → Cmd) : State :=
  s.modCmdU fun u => { u with cmds := modFirst (fun c => c.acceptNo == a) f u.cmds }

/-- The state with the group state of a command changed. -/
def State.modGroup (s : State) (a : Nat) (f : Group → Group) : State :=
  s.modCmd a fun c => { c with group := c.group.map f }

/-- The command of a core. -/
def State.cmdOfCore (s : State) (n : Nat) : Option Cmd := (s.core n).cmd.bind s.getCmd

/-- The GROUP command with a group identity. -/
def State.cmdOfGroup (s : State) (gid : Nat) : Option Cmd :=
  s.cmd.cmds.find? fun c => c.stage != .resolved && match c.group with
    | some g => g.gid == gid
    | none => false

/-- Without an accepted partner (R358, R384). -/
def State.unpaired (s : State) : Bool := !(s.lid.st = .paired || s.lid.st = .degraded)

/-- Bytes of the journal in use (Table 12.15). -/
def CmdSt.used (u : CmdSt) : Nat := sumL (u.journal.map JRec.size)

/-- CMD_STATUS.ACCEPTING: no mirror is unacknowledged, and the journal is rebuilt (R358, R361). -/
def State.accepting (s : State) : Bool := s.power.ready && !s.cmd.replaying && s.cmd.mirrors.isEmpty

/-- A REPLY to the host (Table 12.4). -/
def State.reply (s : State) (tag : Nat) (r : Reply) : State := s.sendHost 0xF1 tag (.reply r)

/-- A rejected message: REPLY, counters and one log record (R355, R381). -/
def State.reject (s : State) (tag client req code sub : Nat) : State :=
  let s := (s.cmdCnt 1).cliCnt client 1 1
  let s := if code = 0x4F then s.cmdCnt 14 else s
  let s := s.logEv { code := code, unit := 0xF1, sub := sub }
  s.reply tag { kind := 2, code := code, sub := sub, pkg := s.pkgIdField, req := req }

/-! ## The journal (R358 to R360) -/

/-- A record for a command with a payload; SEQ and BEAT are given when it is written. -/
def Cmd.record (c : Cmd) (code : Nat) (p : JPayload) : JRec :=
  { acceptNo := c.acceptNo, seq := 0, identity := c.identity, beat := 0, req := c.req, code := code, epoch := c.epoch,
    client := c.client, part := c.part, job := c.job, payload := p }

/-- A record written to the local journal: the record with its SEQ and BEAT, and the state. -/
def State.writeRec (s : State) (r : JRec) : JRec × State :=
  let r := { r with seq := s.cmd.nextSeq, beat := s.now }
  (r, s.modCmdU fun u => { u with journal := u.journal ++ [r], nextSeq := u.nextSeq + 1 })

/-- A record sent to a package in a MIRROR message, kept until it is acknowledged (R358). -/
def State.mirrorTo (s : State) (dst : Nat) (r : JRec) (why : MirrorFor) : State :=
  let (tag, s) := s.freshTag
  let s := s.sendFabric { body := .mirror r, dst := dst, dunit := 0xF1, sunit := 0xF1, tag := tag }
  (s.modCmdU fun u => { u with mirrors := u.mirrors ++ [{ tag := tag, rec_ := r, why := why, dst := dst, sentEdge := s.edge }] }).cmdCnt 9

/-- A record written and, on a paired package, mirrored to the partner. Answers true when nothing has to be waited
for: the package is UNPAIRED (R358). -/
def State.writeMirror (s : State) (r : JRec) (why : MirrorFor) : Bool × State :=
  let (r, s) := s.writeRec r
  if s.unpaired then (true, s) else (false, s.mirrorTo s.lid.partner r why)

/-! ## The vote tree and the peers of a rendezvous (R336, R368) -/

/-- The coordinator of a group: the package at BOX_LO. -/
def Group.coord (g : Group) : Nat := g.boxLo

/-- Hops up and down from the coordinator's coordinate in dimension `k`. -/
def State.boxSpread (s : State) (g : Group) (k : Nat) : Nat × Nat :=
  let n := s.ringSize k
  let lo := Sys2Proof.Machine.coord g.boxLo k
  let hi := Sys2Proof.Machine.coord g.boxHi k
  if hi + 1 = lo + n then (n / 2, (n + 1) / 2 - 1) else (hi - lo, 0)

/-- The last dimension in which a package lies off the coordinator's coordinate: the one in which a broadcast reaches
it. -/
def lastDim (id lo : Nat) : Option Nat :=
  if coord id 3 ≠ coord lo 3 then some 3 else if coord id 2 ≠ coord lo 2 then some 2
  else if coord id 1 ≠ coord lo 1 then some 1 else if coord id 0 ≠ coord lo 0 then some 0 else none

/-- Distance in + direction from the coordinator in dimension `k`. -/
def State.boxOff (s : State) (g : Group) (id k : Nat) : Nat :=
  (coord id k + s.ringSize k - coord g.boxLo k) % s.ringSize k

/-- This package's parent in the vote tree; none at the coordinator. -/
def State.voteParent (s : State) (g : Group) : Option Nat :=
  let id := s.cfg.pkgId
  match lastDim id g.boxLo with
  | none => none
  | some k =>
    let n := s.ringSize k
    let x := coord id k
    if s.boxOff g id k ≤ (s.boxSpread g k).1 then some (withCoord id k ((x + n - 1) % n))
    else some (withCoord id k ((x + 1) % n))

/-- This package's children in the vote tree. -/
def State.voteChildren (s : State) (g : Group) : List Nat :=
  let id := s.cfg.pkgId
  let step := fun k m => withCoord id k (if m then (coord id k + s.ringSize k - 1) % s.ringSize k
    else (coord id k + 1) % s.ringSize k)
  let dimIn := lastDim id g.boxLo
  let same := match dimIn with
    | none => []
    | some k =>
      let ud := s.boxSpread g k
      let off := s.boxOff g id k
      if off ≤ ud.1 then (if off < ud.1 then [step k false] else [])
      else if s.ringSize k - off < ud.2 then [step k true] else []
  let from_ := match dimIn with
    | none => 0
    | some k => k + 1
  same ++ (List.range 4).flatMap fun k =>
    if k < from_ then [] else
      let ud := s.boxSpread g k
      (if 0 < ud.1 then [step k false] else []) ++ (if 0 < ud.2 then [step k true] else [])

/-- A package lies in the box. -/
def inBox (lo hi id : Nat) : Bool :=
  (List.range 4).all fun k => decide (coord lo k ≤ coord id k) && decide (coord id k ≤ coord hi k)

/-- The peers of rendezvous `k` (R368). -/
def State.peers (s : State) (g : Group) (k : Nat) : List Nat :=
  let mask := (g.entries.getD k (0, 0)).2
  if mask = 0 then (s.voteParent g).toList ++ s.voteChildren g
  else
    let id := s.cfg.pkgId
    ((List.range 4).flatMap fun i =>
      if bitOf mask i then
        let n := s.ringSize i
        let x := coord id i
        let ids := [withCoord id i ((x + 1) % n), withCoord id i ((x + n - 1) % n)]
        ids.filter fun q => q != id && inBox g.boxLo g.boxHi q
      else []).eraseDups

/-- R_k of a rendezvous: the base plus its offset (R55). -/
def Group.rk (g : Group) (k : Nat) : Nat := g.base + (g.entries.getD k (0, 0)).1

/-- A message of the command unit to another package's. -/
def State.sendUnit (s : State) (dst : Nat) (b : Body) : State :=
  s.sendFabric { body := b, dst := dst, dunit := 0xF1, sunit := 0xF1 }

/-! ## Votes and decisions (R371 to R373) -/

/-- A stop with this code and subcode is followed by a rerun (Table 12.9). -/
def rerunClass (code sub : Nat) : Bool :=
  [0x14, 0x20, 0x22, 0x24].contains code || (0x30 ≤ code && code ≤ 0x38)
    || (code = 0x42 && [1, 2, 4, 5, 6].contains sub) || (0x60 ≤ code && code ≤ 0x6C) || code = 0x72

/-- A decision that this package can answer with from now on (R373, R374). -/
def State.keepDecision (s : State) (d : Decision) : State :=
  s.modCmdU fun u =>
    { u with partnerDec := (u.partnerDec.filter fun x => !(x.gid == d.gid && x.epoch == d.epoch)) ++ [d] }

/-- A decision held for an attempt of a group. -/
def State.decisionOf (s : State) (gid epoch : Nat) : Option Decision :=
  s.cmd.partnerDec.find? fun d => d.gid == gid && d.epoch == epoch

/-- The coordinator's decision, journaled already, is broadcast to the box (R373). -/
def State.announce (s : State) (c : Cmd) (g : Group) (d : Decision) : State :=
  let s := (s.keepDecision d).modGroup c.acceptNo fun g => { g with decision := some d, deciding := none }
  (s.broadcast g.boxLo g.boxHi (.decision d)).cmdCnt 4

/-- The coordinator decides ABORT or FAIL on a negative vote (R373, first case). -/
def State.decideNeg (s : State) (c : Cmd) (g : Group) (fail : Bool) (cause first restart : Nat) : State :=
  let fail := fail || decide (c.rerunMax + 1 < c.attempts + 1)
  let d : Decision :=
    { gid := g.gid, epoch := c.epoch, kind := if fail then 3 else 2, cause := cause, first := first,
      beat := if fail then 0 else max (s.now + g.rerunDelay) (max g.restart restart) }
  (s.writeMirror (c.record d.cause (.decision d g.rerunDelay)) .plain).2.announce c g d

/-- A participant votes ABORT or FAIL (R372): only once in an attempt, and never after COMMIT. -/
def State.voteNeg (s : State) (a : Nat) (fail : Bool) (cause restart : Nat) : State :=
  match s.getCmd a with
  | none => s
  | some c =>
    match c.group with
    | none => s
    | some g =>
      if g.voted.isSome || g.decision.isSome then s
      else
        let kind := if fail then 3 else 2
        let s := s.modGroup a fun g =>
          { g with voted := some kind, voteEdge := s.edge, restart := max g.restart restart }
        let s := if 0x35 ≤ cause ∧ cause ≤ 0x38 then s.beatCnt 23 else s
        match s.voteParent g with
        | none => s.decideNeg c g fail cause s.cfg.pkgId restart
        | some p =>
          if g.forwarded then s
          else
          let v : Vote :=
            { gid := g.gid, epoch := c.epoch, kind := kind, cause := cause, voter := s.cfg.pkgId, restart := restart }
          (s.sendUnit p (.vote v)).cmdCnt 5

/-! ## Stopping a core, raising a fault (R93, R130) -/

/-- Every window of a core closed and every credit dropped (R130). -/
def CoreSt.closeWindows (c : CoreSt) : CoreSt :=
  let n := c.ownCredits.length + c.credits.length
  let c := { c with
    wins := vmap c.wins (fun w => if w.isOpen then { w with isOpen := false, epoch := (w.epoch + 1) % 65536 } else w)
    ownCredits := []
    credits := [] }
  c.xchBump 6 n

/-- Every tag epoch of a core advanced (R203). -/
def StreamSt.advanceAll (m : StreamSt) : StreamSt :=
  { m with tags := vmap m.tags fun t => { t with epoch := t.epoch + 1 } }

/-- Tiles that wait for the Whisk are dropped, and their tags return to the pool (R203). -/
def StreamSt.dropWhisk (m : StreamSt) : StreamSt :=
  { m with tags := vmapIdx m.tags fun i t => if m.whiskQ.contains i then { t with g := none, cancelled := false } else t }

/-- A core stops under R93: dispatch ends, the queues and the signals of the next cycle empty, tag epochs advance, race slots become FREE, windows close,
and the core enters ABORTING. A tile that waits in the Whisk is a response dropped: of a cancelled race, or of another
fetch (R89, R203, Tables 3.19 and 7.13). -/
def CoreSt.stop (c : CoreSt) (code : Nat) : CoreSt :=
  let raced := (c.sm.whiskQ.filter fun i => (vget c.sm.tags i).cancelled).length
  let c := (c.closeWindows.ldlBump 13 (c.sm.whiskQ.length - raced)).seqBump 4 raced
  { c with
    st := .aborting
    cur := none
    sigs := []
    late := []
    queues := Vector.replicate 5 []
    flights := Vector.replicate 5 []
    races := Vector.replicate 4 {}
    puts := []
    loading := none
    abortCode := code
    sm := { c.sm.advanceAll.dropWhisk with xfers := [], cols := [], whiskQ := [] } }

/-- A core that runs, loads or drains a command. -/
def CoreSt.busy (c : CoreSt) : Bool := c.st != .idle && c.st != .aborting

/-- Every core of a command stops with a code, and its attempt is ending (R93, R366). The first cause is kept. -/
def State.stopCmd (s : State) (a code sub cause pkg : Nat) : State :=
  match s.getCmd a with
  | none => s
  | some c =>
    let s := { s with cores := vmap s.cores fun k => if k.cmd = some a ∧ k.busy then k.stop code else k }
    if c.stage = .aborting then s
    else s.modCmd a fun c =>
      { c with stage := .aborting, code := code, sub := sub, cause := cause, causePkg := pkg, kill := none }

/-- A fault on core `n`, queue `q`, raised for the instruction at `pc` with an address and a detail (R93): one log
record, SEQ_FAULT, and the command stops on every core it runs on; a group participant votes (R372). A core that runs
no command raises none. -/
def State.raiseFaultD (s : State) (n q code pc : Nat) (addr : LogAddr) (detail : Nat) : State :=
  let c := s.core n
  if !c.busy then s
  else
    let a := c.cmd.getD 0
    let s := s.logEv { coreEv n q code with
      pc := bitsOf pc 22 4, addr := addr, acceptNo := a, sub := bitsOf detail 7 0, cause := bitsOf detail 15 8 }
    let s := s.modCore n fun c =>
      { c with faultCode := code, faultQueue := q, faultValid := true, faultPc := bitsOf pc 22 4 }
    match c.cmd with
    | none => s.modCore n fun c => c.stop code
    | some a =>
      let s := s.voteNeg a (!rerunClass code 0) code 0
      s.stopCmd a code (bitsOf detail 7 0) (bitsOf detail 15 8) s.pkgIdField

/-- A fault with an address and no detail. -/
def State.raiseFault (s : State) (n q code pc : Nat) (addr : LogAddr) : State := s.raiseFaultD n q code pc addr 0

/-- A command is to be killed at the next beat edge (R372, R375, R377). -/
def State.killCmd (s : State) (a code sub cause pkg : Nat) : State :=
  s.modCmd a fun c =>
    if c.kill.isSome || c.stage == .aborting then c else { c with kill := some (code, sub, cause, pkg), killEdge := s.edge + 1 }

/-- The package votes ABORT in a command's group with a cause, and its cores stop at the next beat edge (R372). -/
def State.abortGroup (s : State) (a cause : Nat) : State :=
  match s.getCmd a with
  | none => s
  | some c => match c.group with
    | none => s
    | some g =>
      if g.voted.isSome || g.decision.isSome then s
      else (s.voteNeg a false cause 0).killCmd a 0x42 2 cause s.cfg.pkgId

end Sys2Proof.Machine
end

