-- ==== Sys2Proof/Machine/Tiers.lean ====
section
/-!
DEFINITION. Objects, their versions and the tiers: the home table, access checks, placement and allocation, quotas,
the sectors of the Press, and the release of extents (R245 to R284). Shared by the stream engines, the command layer and
the object requests.
-/

namespace Sys2Proof.Machine

open Sys2Proof

/-- Bytes of an extent: 2 MiB (R246). -/
def extentBytes : Nat := 2 ^ 21

/-! ## The home table (R246 to R250) -/

/-- The handle of an entry (R247). -/
def Obj.handle (o : Obj) : Nat := o.gen * 2 ^ 20 + o.idx

/-- Logical extents of an object. -/
def Obj.extents (o : Obj) : Nat := ceilDiv o.size extentBytes

/-- The entry that a handle that is not null and not stale names (R247). -/
def TongsSt.byHandle (t : TongsSt) (h : Nat) : Option Obj :=
  t.objs.find? fun o => o.handle == h && o.st != .creating && h != 0

/-- The entry with an index. -/
def TongsSt.byIdx (t : TongsSt) (i : Nat) : Option Obj := t.objs.find? fun o => o.idx == i

/-- The state with an entry changed. -/
def State.modObj (s : State) (idx : Nat) (f : Obj → Obj) : State :=
  s.modTongs fun t => { t with objs := modFirst (fun o => o.idx == idx) f t.objs }

/-- A partition may read an object (R248). -/
def Obj.readableBy (o : Obj) (p : Nat) : Bool := o.part == p || bitOf o.grants p

/-- The use that a command makes of an object, when it lists it. -/
def Cmd.use (c : Cmd) (h : Nat) : Option ObjUse := c.objs.find? fun u => u.handle == h

/-- The version of an object that an engine of a command reads or writes. -/
structure Target where
  obj : Obj
  ver : Version
  staged : Bool
deriving DecidableEq, Repr, Inhabited

/-- What an engine of core `n` reaches through a handle, or the code of its fault (R248, R282, Table 12.8). Only a
command's staged versions are written; an OUT_COPY, OUT_FRESH or SCRATCH object is also read in its staged version. -/
def State.engineTarget (s : State) (n h : Nat) (write : Bool) : Except Nat Target :=
  match s.tongs.byHandle h, s.cmdOfCore n with
  | some o, some c =>
    match (c.use h).bind (fun u => u.staged.map fun v => (u.role, v)) with
    | some (role, v) =>
      if write || role != 1 then .ok { obj := o, ver := v, staged := true }
      else if o.st = .lost then .error 0x59
      else if o.readableBy c.part then .ok { obj := o, ver := o.cur, staged := false } else .error 0x1E
    | none =>
      if write || !o.readableBy c.part then .error 0x1E
      else if o.st = .lost then .error 0x59
      else .ok { obj := o, ver := o.cur, staged := false }
  | _, _ => .error 0x1E

/-- WHERE of the extent that holds an offset of a version (Table 9.3). -/
def Version.where_ (v : Version) (off : Nat) : Nat := v.wheres.getD (off / extentBytes) 0

/-- The Stockpot slice of an offset of a version (Table 9.3). -/
def Version.slice (v : Version) (off : Nat) : Nat := bitsOf (v.where_ off) 16 13

/-- The block-map entry of the block at an offset of a Press-coded version (R272). -/
def Version.block (v : Version) (off : Nat) : Option Block := v.blocks.find? fun b => b.no == off / 4096

/-- SECTORS of the block at an offset of a Press-coded version (R272). -/
def Version.sectors (v : Version) (off : Nat) : Nat := ((v.block off).map (·.sectors)).getD 0

/-- Sectors in use by a Press-coded version. -/
def Version.sectorsUsed (v : Version) : Nat := sumL (v.blocks.map (·.sectors))

/-- The charge of a current version (Table 9.10). -/
def Version.chargeOf (v : Version) : Nat := if v.press then ceilDiv v.sectorsUsed 2048 else v.wheres.length

/-- A version's bytes lie at the host: RAW in the host tier. -/
def Version.hostRaw (v : Version) : Bool := v.tier == 2 && !v.press

/-- A version without its bytes: what a translation of it gives (R259). -/
def Version.bare (v : Version) : Version := { v with content := {} }

/-- The host I/O address of a sector of the host pool: sectors are numbered through its extents (R272, R279). -/
def State.sectorAddr (s : State) (first : Nat) : Nat :=
  s.tongs.pool.getD (first / 2048) 0 * extentBytes + first % 2048 * 1024

/-- The host I/O address of the byte at an offset of a RAW version of the host tier (Table 9.3). -/
def Version.rawAddr (v : Version) (off : Nat) : Nat := v.where_ off * extentBytes + off % extentBytes

/-- The far page that holds the byte at an offset of a far-memory version (R502): of a Press-coded one the page of the
block's sectors. -/
def Version.farPage (v : Version) (off : Nat) : Nat :=
  if v.press then ((v.block off).map (·.first)).getD 0 / 4 else 512 * v.where_ off + off % extentBytes / 4096

/-- The trained channels, lowest first: c_0, c_1, … of R502. -/
def TongsSt.channels (t : TongsSt) : List Nat := (List.range 24).filter (bitOf t.trained)

/-- The channel that far page `p` lies on (R502). -/
def TongsSt.channelOf (t : TongsSt) (p : Nat) : Nat := t.channels.getD (p % max 1 t.channels.length) 0

/-- A read or a write of `len` bytes at a host I/O address, sent by a unit for an owner, and its tag (R278). `off` is the object
byte that it begins at. -/
def State.askHostAs (s : State) (unit : Nat) (o : HostOwner) (write : Option (List Byte)) (addr len off : Nat) : Nat × State :=
  let (ht, s) := s.freshTag
  let s := s.sendHost unit ht (match write with
    | some d => .hostWrite addr d
    | none => .hostRead addr len)
  (ht, { s with hostReqs := s.hostReqs ++
    [{ tag := ht, write := write.isSome, addr := addr, len := len, owner := o, sentEdge := s.edge, data := write.getD [], off := off }] })

/-- The staged version of a command's object changed. -/
def State.modStaged (s : State) (a h : Nat) (f : Version → Version) : State :=
  s.modCmd a fun c =>
    { c with objs := modFirst (fun u => u.handle == h) (fun u => { u with staged := u.staged.map f }) c.objs }

/-- The use of an entry by region `r` (R259, R269): its home cache loads it on a miss, and records the interval of a
hit; LAST_USE is set by a load and by the first use in an interval. -/
def State.touchHome (s : State) (r idx : Nat) : State :=
  let iv := s.now / 65536
  let c := (s.region r).cache
  let hit := c.find? fun e => e.1 == idx
  let s := s.modRegion r fun g => { g with cache := ((idx, iv) :: g.cache.filter fun e => e.1 != idx).take 1024 }
  match hit with
  | none => (s.tngCnt 14 1).modObj idx fun o => { o with lastUse := s.now }
  | some e => if e.2 = iv then s else s.modObj idx fun o => { o with lastUse := s.now }

/-- The entry leaves the home caches of all regions (R258, R270). -/
def State.invalidate (s : State) (idx : Nat) : State :=
  { s with regions := vmap s.regions fun g => { g with cache := g.cache.filter fun e => e.1 != idx } }

/-! ## Tiers and their units (R245, R277, R284) -/

/-- A tier is present (TNG_STATUS.TIERS). -/
def State.tierUp (s : State) (t : Nat) : Bool :=
  match t with
  | 0 => s.tongs.tiersUp
  | 1 => s.tongs.farPresent
  | 2 => s.tongs.tiersUp
  | _ => false

/-- Far pages of 4 KiB below the Lid reserve: the trained channels' capacity less the reserve (R277, R385, R502). -/
def State.farPages (s : State) : Nat := (popc s.tongs.trained 24 * 2 ^ (33 + s.tongs.density) - s.tongs.reserve) / 4096

/-- Far pages that no allocation takes: retired or withheld (R296, R301). -/
def State.farBadPages (s : State) : List Nat := s.integ.farRetired ++ s.integ.farWithheld.map (·.1)

/-- Units of 2 MiB that far memory offers: its pages less the retired ones, rounded down (Table 10.5). -/
def State.farUnits (s : State) : Nat := if s.tongs.farPresent then (s.farPages - s.integ.farRetired.length) / 512 else 0

/-- Capacity of a tier in units (TNG_TIER_t). -/
def State.tierCap (s : State) (t : Nat) : Nat :=
  match t with
  | 0 => if s.tongs.tiersUp then 6144 * (s.regions.toList.filter fun g => g.slice != 2).length else 0
  | 1 => s.farUnits
  | _ => s.tongs.pool.length

/-- The units of a version are drawn from the pool of its tier: far extents, host-pool extents, sectors. A RAW range of
the host tier that the host named takes none. -/
def Version.drawn (v : Version) : Bool := v.tier == 1 || v.press || v.pooled

/-- Every version that holds extents: current versions, move targets, staged versions. -/
def State.versions (s : State) : List Version :=
  (s.tongs.objs.map (·.cur)) ++ (s.tongs.moves.map (·.tgt))
    ++ s.cmd.cmds.flatMap fun c => c.objs.filterMap (·.staged)

/-- The runs of sectors in use in the pool of a tier: first sector and count (R272), releases that wait among them. -/
def State.sectorRuns (s : State) (t : Nat) : List (Nat × Nat) :=
  ((s.versions.filter fun v => v.tier == t && v.press).flatMap (·.blocks)
    ++ (s.tongs.releases.filter fun r => r.tier == t && r.press).flatMap (·.blocks)).map fun b => (b.first, b.sectors)

/-- Units drawn from the pool of a tier, releases that wait among them. -/
def State.drawnUnits (s : State) (t : Nat) : Nat :=
  sumL ((s.versions.filterMap fun v => if v.tier = t ∧ v.drawn = true then some v.charge else none)
    ++ s.tongs.releases.filterMap fun r =>
      if r.tier = t ∧ (t = 1 ∨ r.press = true ∨ r.pooled = true) then some r.units else none)

/-- Free extents of slice `r`; a slice that retires allocates nothing (R302). -/
def State.sliceFree (s : State) (r : Nat) : Nat :=
  if (s.region r).slice ≠ 0 then 0 else 6144 - (s.region r).used.length

/-- Units of a tier that are not allocated (TNG_TIER_t.FREE). -/
def State.tierFree (s : State) (t : Nat) : Nat :=
  match t with
  | 0 => if s.tongs.tiersUp then sumL ((List.range 16).map s.sliceFree) else 0
  | _ => s.tierCap t - s.drawnUnits t

/-- The next lower present tier. -/
def State.lowerTier (s : State) (t : Nat) : Option Nat :=
  if t = 0 then (if s.tierUp 1 then some 1 else if s.tierUp 2 then some 2 else none)
  else if t = 1 then (if s.tierUp 2 then some 2 else none)
  else none

/-! ## Quotas (R264 to R268) -/

/-- Quota of a client in a tier. -/
def State.quota (s : State) (c t : Nat) : Quota := vget (vget s.tongs.quotas c) t

/-- The state with USED of a client in a tier changed. -/
def State.modUsed (s : State) (c t : Nat) (f : Nat → Nat) : State :=
  s.modTongs fun u => { u with quotas := vmod u.quotas c fun v => vmod v t fun q => { q with used := f q.used } }

/-- Units charged to a client. -/
def State.charge (s : State) (c t n : Nat) : State := s.modUsed c t fun u => u + n
/-- Units returned to a client. -/
def State.uncharge (s : State) (c t n : Nat) : State := s.modUsed c t fun u => u - n

/-! ## Placement (R251, R502, R503) -/

/-- The first number from `start` on, modulo `n`, that is not taken. -/
def nextFree (taken : Nat → Bool) (n : Nat) : Nat → Nat → Option Nat
  | 0, _ => none
  | fuel + 1, x => if taken (x % n) then nextFree taken n fuel (x + 1) else some (x % n)

/-- A number below `n` that is not in `used` nor taken otherwise, of the device's choice (R503), and the state. -/
def State.chooseFree (s : State) (n : Nat) (used : List Nat) (bad : Nat → Bool) (nbad : Nat) : Option Nat × State :=
  let (k, s) := s.fresh
  if n = 0 then (none, s)
  else (nextFree (fun x => used.contains x || bad x) n (min n (used.length + nbad + 1)) (Config.pick k), s)

/-- The slices that extent `i` of an object placed by PLACE tries, in order (R251). -/
def State.sliceOrder (s : State) (place i : Nat) : List Nat :=
  if place = 0x11 then
    let best := (List.range 16).foldl (fun b r => if s.sliceFree b < s.sliceFree r then r else b) 0
    [best]
  else
    let r := if place = 0x10 then i % 16 else place % 16
    let d := r / 4
    let die := fun e => (List.range 4).map fun g => 4 * (e % 4) + g
    r :: (die d).filter (· != r) ++ die (d + 1) ++ die (d + 3) ++ die (d + 2)

/-- One Stockpot extent of an object (R251): WHERE of Table 9.3. -/
def State.takeStock (s : State) (place i : Nat) : Option Nat × State :=
  match (s.sliceOrder place i).find? fun r => 0 < s.sliceFree r with
  | none => (none, s)
  | some r =>
    let (e, s) := s.chooseFree 6144 (s.region r).used (fun _ => false) 0
    match e with
    | none => (none, s)
    | some e => (some (8192 * r + e), s.modRegion r fun g => { g with used := e :: g.used })

/-- Far extents that a RAW version cannot have: one of their pages is retired, is withheld, or holds sectors (R296, R502,
R503). -/
def State.farBadExtents (s : State) : List Nat :=
  (s.farBadPages.map (· / 512) ++ (s.sectorRuns 1).map fun (u : Nat × Nat) => u.1 / 2048).eraseDups

/-- One far extent (R502, R503). -/
def State.takeFar (s : State) : Option Nat × State :=
  let bad := s.farBadExtents
  let (e, s) := s.chooseFree (s.farPages / 512) s.tongs.farUsed (fun x => bad.contains x) bad.length
  match e with
  | none => (none, s)
  | some e => (some e, s.modTongs fun t => { t with farUsed := e :: t.farUsed })

/-- One block map (R249). -/
def State.takeMap (s : State) : Option Nat × State :=
  let (e, s) := s.chooseFree 1048576 s.tongs.mapsUsed (fun _ => false) 0
  match e with
  | none => (none, s)
  | some e => (some e, s.modTongs fun t => { t with mapsUsed := e :: t.mapsUsed })

/-- Host-pool extents that RAW versions hold. -/
def State.poolUsed (s : State) : List Nat :=
  (s.versions.flatMap fun v => if v.pooled then v.wheres else [])
    ++ s.tongs.releases.flatMap fun r => if r.pooled then r.wheres else []

/-- Extents of the host pool that are free as a whole: no RAW version holds them and no sector of them is in use. -/
def State.poolWhole (s : State) : List Nat :=
  let busy := (s.sectorRuns 2).map fun (u : Nat × Nat) => u.1 / 2048
  let used := s.poolUsed
  ((List.range s.tongs.pool.length).filter fun i => !busy.contains i && !used.contains (s.tongs.pool.getD i 0)).map
    fun i => s.tongs.pool.getD i 0

/-- One host-pool extent for a RAW version (R503). -/
def State.takePool (s : State) (used : List Nat) : Option Nat × State :=
  let free := s.poolWhole.filter fun e => !used.contains e
  let (k, s) := s.fresh
  (free[Config.pick k % max 1 free.length]?, s)

/-- Extents that RAW versions of a tier could take now. -/
def State.wholeFree (s : State) (t : Nat) : Nat :=
  match t with
  | 1 => s.farPages / 512 - (s.tongs.farUsed ++ s.farBadExtents).eraseDups.length
  | 2 => s.poolWhole.length
  | _ => s.tierFree t

/-! ## Sectors (R272, R503) -/

/-- Pages of the sector pool of a tier. -/
def State.poolPages (s : State) (t : Nat) : Nat := if t = 1 then s.farPages else 512 * s.tongs.pool.length

/-- Sectors of a page at which a run of `n` free sectors begins. -/
def fits (used : List (Nat × Nat)) (n p : Nat) : List Nat :=
  (List.range (5 - n)).filter fun k => used.all fun u => !rangesMeet (4 * p + k) n u.1 u.2

/-- A page of the sector pool of a tier that holds no sectors: of a RAW extent, retired or withheld. -/
def State.pageTaken (s : State) (t p : Nat) : Bool :=
  if t = 1 then s.tongs.farUsed.contains (p / 512) || s.farBadPages.contains p
  else s.poolUsed.contains (s.tongs.pool.getD (p / 512) 0)

/-- The first of `n` consecutive free sectors within one page of the pool of a tier, of the device's choice (R272, R503), and
the state. With no page free, which the reservation of Table 9.10 leaves to the device, any page (DESIGN CHOICE, assumption
57). -/
def State.takeSectors (s : State) (t n : Nat) : Nat × State :=
  let used := s.sectorRuns t
  let total := s.poolPages t
  let (k, s) := s.fresh
  let p := (nextFree (fun p => s.pageTaken t p || fits used n p == []) total total (Config.pick k)).getD
    (Config.pick k % max 1 total)
  let (k, s) := s.fresh
  let os := fits used n p
  (4 * p + os.getD (Config.pick k % max 1 os.length) 0, s)

/-! ## Versions: allocation and release (R251, R259, R264) -/

/-- WHERE of `n` extents from number `i` on. A RAW version of the host tier takes the range from `host` on, or pool
extents when `host` is none. `got` lists the pool extents taken so far. -/
def State.takeExtents (tier : Nat) (press : Bool) (place : Nat) (host : Option Nat) (got : List Nat) : Nat → Nat → State → List Nat × State
  | 0, _, s => ([], s)
  | n + 1, i, s =>
    let (w, s) :=
      if press then s.takeMap
      else match tier, host with
        | 0, _ => s.takeStock place i
        | 1, _ => s.takeFar
        | _, some h => (some (h / extentBytes + i), s)
        | _, none => s.takePool got
    let x := w.getD 0
    let (ws, s) := State.takeExtents tier press place host (x :: got) n (i + 1) s
    (x :: ws, s)

/-- A new version of `n` extents, charged to a client; its contents are given (R264, Table 9.10). -/
def State.newVersion (s : State) (client tier : Nat) (press : Bool) (place : Nat) (host : Option Nat) (n : Nat)
    (content : Mem) : Version × State :=
  let (ws, s) := State.takeExtents tier press place host s.poolUsed n 0 s
  let (k, s) := s.fresh
  let v : Version :=
    { tier := tier, press := press, place := place, wheres := ws, charge := n
      mapAddr := (let a := Config.mapAddr k; if a = 0 then 1 else a), hostAddr := host.getD 0
      pooled := (tier == 2 && !press && host.isNone), content := content }
  (v, s.charge client tier n)

/-- The extents and block maps of a version return to their tier (R259). -/
def State.giveBack (s : State) (tier : Nat) (press : Bool) (ws : List Nat) : State :=
  if press then s.modTongs fun t => { t with mapsUsed := t.mapsUsed.filter fun w => !ws.contains w }
  else match tier with
    | 0 =>
      { s with regions := vmapIdx s.regions fun r g =>
          { g with used := g.used.filter fun e => !ws.contains (8192 * r + e) } }
    | 1 => s.modTongs fun t => { t with farUsed := t.farUsed.filter fun w => !ws.contains w }
    | _ => s

/-- A version never reached by a translation is released at once, with its charge (Table 9.7: targets are freed). -/
def State.dropVersion (s : State) (client : Nat) (v : Version) : State :=
  (s.giveBack v.tier v.press v.wheres).uncharge client v.tier v.charge

/-- The granules of a core that were translated to a version of an object wait for a release (R259). -/
def StreamSt.markRelease (m : StreamSt) (h : Nat) (staged : Bool) (id : Nat) : StreamSt :=
  { m with tags := vmap m.tags fun t =>
      { t with g := t.g.map fun p =>
          if p.2.handle = h ∧ p.2.staged = staged ∧ p.2.release = none then (p.1, { p.2 with release := some id })
          else p } }

/-- A version that translations may have reached is released under R259: its extents and its charge stay until no
granule translated to them is outstanding (row EXTENT_RELEASE). `owner` limits a staged version to the cores of its
command. -/
def State.release (s : State) (client h : Nat) (v : Version) (staged : Option Nat) : State :=
  let id := s.tongs.nextRelease
  let s := s.modTongs fun t =>
    { t with
      nextRelease := id + 1
      releases := t.releases ++
        [{ id := id, client := client, tier := v.tier, press := v.press, wheres := v.wheres, units := v.charge, pooled := v.pooled
           blocks := v.blocks }] }
  { s with cores := vmap s.cores fun c =>
      if staged = none ∨ c.cmd = staged then { c with sm := c.sm.markRelease h staged.isSome id } else c }

/-- Frozen images that a copy of the Lid still reads (R391, R398, R401). -/
def State.heldImages (s : State) : List Image :=
  (s.lid.secure.toList.map (·.image)) ++ (s.lid.frozen.map (·.image)) ++ (s.lid.flash.toList.map (·.image))
    ++ (s.lid.store.toList.map (·.image))

/-- An image holds the extents of a version: of a SECURE object of tier 0 or 1 (R391). -/
def Image.holds (i : Image) (tier : Nat) (wheres : List Nat) : Bool :=
  i.objs.any fun x => x.content.isSome && x.obj.cur.tier == tier && x.obj.cur.wheres == wheres

/-- A release still has outstanding granules, its extents are the old home of a flip that not all regions have acknowledged, or
a copy of the Lid reads them (R259, R260, R391). -/
def State.releaseBusy (s : State) (r : Release) : Bool :=
  (s.tongs.flips.any fun f => f.rel == r.id) || (s.heldImages.any fun i => i.holds r.tier r.wheres) || s.cores.toList.any fun c => c.sm.tags.toList.any fun t =>
    match t.g with
    | some (_, g) => g.release == some r.id
    | none => false

end Sys2Proof.Machine
end

