-- ==== Sys2Proof/Machine/Copies.lean ====
section
/-!
DEFINITION. The Press and the copies of the Tongs: how blocks are coded and placed, the traffic of moves and of staging
copies with the host, and the merge buffer (R258, R272 to R278, R362).
-/

namespace Sys2Proof.Machine

open Sys2Proof

/-! ## Coding (R272, R273, R275) -/

/-- Sectors that 4,096 bytes code to (R272): 0 for zero bytes, else the codec's choice of 1 to 4. -/
def codedSectors (ver : Nat) (c : List Byte) : Nat :=
  if c.all (· == 0) then 0 else 1 + Config.pressSectors ver (ofLE c) % 4

/-- The stored form of the block at an offset of a Press-coded version (R272): its own bytes in 4 sectors, else the
codec's. -/
def Version.blockBytes (v : Version) (off : Nat) : List Byte :=
  let c := v.content.readN (off / 4096 * 4096) 4096
  match v.block off with
  | none => []
  | some b => if b.sectors = 4 then c else (List.range (1024 * b.sectors)).map (Config.pressByte b.codec (ofLE c))

/-- A block-map entry put in its place; one of 0 sectors is not listed. -/
def Version.putBlock (v : Version) (b : Block) : Version :=
  let rest := v.blocks.filter fun x => x.no != b.no
  { v with blocks := if b.sectors = 0 then rest else rest ++ [b] }

/-- Block `b` of a Press-coded version is coded from its bytes into sectors of the device's choice (R272, R273, R503), and
counted (Table 9.18). -/
def State.codeBlock (s : State) (v : Version) (b : Nat) : Version × State :=
  let k := codedSectors s.tongs.codecVer (v.content.readN (4096 * b) 4096)
  let s := ((s.tngCnt 17 1).tngCnt 18 4096).tngCnt 19 k
  if k = 0 then (v.putBlock { no := b, sectors := 0, first := 0, codec := 0 }, s.tngCnt 21 1)
  else
    let (first, s) := s.takeSectors v.tier k
    (v.putBlock { no := b, sectors := k, first := first, codec := s.tongs.codecVer }, s)

/-- A block keeps its coded sectors as they move to another tier: their number and their codec stay, their place is new
(R258, R273). -/
def State.moveBlock (s : State) (src v : Version) (b : Nat) : Version × State :=
  match src.block (4096 * b) with
  | none => (v.putBlock { no := b, sectors := 0, first := 0, codec := 0 }, s)
  | some x =>
    let (first, s) := s.takeSectors v.tier x.sectors
    (v.putBlock { x with first := first }, s)

/-- The first `n` blocks of a version that has its bytes are coded, one after the other, with nothing counted: a version
that a restoration puts in place (Table 13.10). -/
def State.codeAll (s : State) : Nat → Version → Version × State
  | 0, v => (v, s)
  | n + 1, v =>
    let (v, s) := State.codeAll s n v
    let cnt := s.tongs.cnt
    let (v, s) := s.codeBlock v n
    (v, s.modTongs fun t => { t with cnt := cnt })

/-! ## Host traffic of the Tongs (R275, R278) -/

/-- Where block `b` of a host-tier version of `size` bytes lies: its address and the bytes that move; a Press-coded block moves
its sectors only (R275). -/
def State.blockAt (s : State) (v : Version) (size b : Nat) : Nat × Nat :=
  if v.press then (s.sectorAddr (((v.block (4096 * b)).map (·.first)).getD 0), 1024 * v.sectors (4096 * b))
  else (v.rawAddr (4096 * b), min 4096 (size - 4096 * b))

/-- A HOST_READ of a block for the Tongs, if there is anything to read; and its tag. -/
def State.readBlock (s : State) (w : HostOwner) (v : Version) (size b : Nat) : Option Nat × State :=
  let (addr, len) := s.blockAt v size b
  if v.tier ≠ 2 ∨ len = 0 then (none, s)
  else
    let (t, s) := s.askHostAs 0xF0 w none addr len (4096 * b)
    (some t, s)

/-- A HOST_WRITE of a block for the Tongs, if there is anything to write. -/
def State.writeBlock (s : State) (w : HostOwner) (v : Version) (size b : Nat) : State :=
  let (addr, len) := s.blockAt v size b
  if v.tier ≠ 2 ∨ len = 0 then s
  else (s.askHostAs 0xF0 w (some (if v.press then v.blockBytes (4096 * b) else v.content.readN (4096 * b) len)) addr len (4096 * b)).2

/-- A requester waits no more for its outstanding requests: their answers are dropped. -/
def State.dropReqs (s : State) (w : HostOwner) : State :=
  { s with hostReqs := s.hostReqs.map fun r => if r.owner = w then { r with owner := .dropped } else r }

/-- A requester has nothing outstanding at the host. -/
def State.hostIdle (s : State) (w : HostOwner) : Bool := !s.hostReqs.any fun r => decide (r.owner = w)

/-! ## Copies of moves and of staging (R258, R362) -/

/-- Source and target of a copy, and the bytes that it copies. -/
def State.copyOf (s : State) (w : HostOwner) : Option (Version × Version × Nat) :=
  match w with
  | .move idx => (s.tongs.moves.find? fun m => m.idx == idx).bind fun m => (s.tongs.byIdx idx).map fun o => (o.cur, m.tgt, o.size)
  | .stage a h =>
    ((s.getCmd a).bind fun c => (c.use h).bind (·.staged)).bind fun v => (s.tongs.byHandle h).map fun o => (o.cur, v, o.size)
  | _ => none

/-- The target of a copy changed. -/
def State.modCopy (s : State) (w : HostOwner) (f : Version → Version) : State :=
  match w with
  | .move idx => s.modTongs fun t => { t with moves := modFirst (fun m => m.idx == idx) (fun m => { m with tgt := f m.tgt }) t.moves }
  | .stage a h => s.modStaged a h f
  | _ => s

/-- Block `b` of the target of a copy has its bytes: it is coded where the codecs differ, and written to the host where the target
lies there (R258, R275). -/
def State.copyBlock (w : HostOwner) (s : State) (b : Nat) : State :=
  match s.copyOf w with
  | none => s
  | some (src, v, size) =>
    let (v, s) := if !v.press then (v, s) else if src.press then s.moveBlock src v b else s.codeBlock v b
    (s.modCopy w fun x => { x with blocks := v.blocks }).writeBlock w v size b

/-- A copy begins: each block is read from the host, where it has to be, or copied. All requests of a copy are sent as it begins
(DESIGN CHOICE, assumption 57); MOVE_RATE bounds its end (R258). -/
def State.beginCopy (s : State) (w : HostOwner) : State :=
  match s.copyOf w with
  | none => s
  | some (src, v, size) =>
    let s := if src.hostRaw then s else s.modCopy w fun x => { x with content := src.content }
    (List.range (ceilDiv size 4096)).foldl (fun s b =>
      let s := if src.press && !v.press then s.tngCnt 16 1 else s
      match s.readBlock w src size b with
      | (none, s) => State.copyBlock w s b
      | (some _, s) => s) s

/-- A block of a copy's source arrives from the host (R258, R278). -/
def State.copyArrives (s : State) (w : HostOwner) (off : Nat) (d : List Byte) : State :=
  match s.copyOf w with
  | none => s
  | some (src, _, _) =>
    let s := if src.hostRaw then s.modCopy w fun x => { x with content := x.content.writeN off d } else s
    State.copyBlock w s (off / 4096)

/-- Moves that do not wait begin their copies (R258). -/
def State.beginMoves (s : State) : State :=
  (s.tongs.moves.filter fun m => !m.waiting && !m.begun).foldl (fun s m =>
    (s.modTongs fun t => { t with moves := modFirst (fun x => x.idx == m.idx) (fun x => { x with begun := true }) t.moves }).beginCopy
      (.move m.idx)) s

/-! ## The merge buffer (R265, R275) -/

/-- The version that an entry's block belongs to. -/
def State.mergeVer (s : State) (e : MergeEnt) : Option (Version × Nat) :=
  (s.tongs.byIdx e.idx).bind fun o => match e.cmd with
    | some a => ((s.getCmd a).bind fun c => (c.use o.handle).bind (·.staged)).map fun v => (v, o.size)
    | none => some (o.cur, o.size)

/-- The version of an entry's block changed. -/
def State.modMergeVer (s : State) (e : MergeEnt) (f : Version → Version) : State :=
  match e.cmd, s.tongs.byIdx e.idx with
  | some a, some o => s.modStaged a o.handle f
  | none, some _ => s.modObj e.idx fun o => { o with cur := f o.cur }
  | _, none => s

/-- The buffer holds a block of the version that a command stages. -/
def TongsSt.merging (t : TongsSt) (idx a b : Nat) : Bool := t.merge.any fun e => e.idx == idx && e.cmd == some a && e.blk == b

/-- The merge buffer has room for the blocks of a store, those that it holds already apart (R275). -/
def TongsSt.mergeRoom (t : TongsSt) (idx a : Nat) (bs : List Nat) : Bool :=
  decide (t.merge.length + (bs.filter fun b => !t.merging idx a b).length ≤ 256)

/-- A store to a part of a block enters the merge buffer: a block that it does not hold is read and expanded (R275, Table
9.18). -/
def State.mergeIn (idx a : Nat) (s : State) (b : Nat) : State :=
  let s := s.tngCnt 20 1
  if s.tongs.merging idx a b then s
  else
    let e : MergeEnt := { idx := idx, cmd := some a, blk := b }
    let s := s.tngCnt 16 1
    match s.mergeVer e with
    | none => s
    | some (v, size) =>
      let (t, s) := s.readBlock (.merge e) v size b
      s.modTongs fun x => { x with merge := x.merge ++ [{ e with tag := t }] }

/-- An entry's block is coded again and leaves the buffer; its sectors are written (R275). -/
def State.codeMerge (s : State) (e : MergeEnt) : State :=
  let s := s.modTongs fun t => { t with merge := dropFirst (fun x => x == e) t.merge }
  match s.mergeVer e with
  | none => s
  | some (v, size) =>
    let (v, s) := s.codeBlock v e.blk
    (s.modMergeVer e fun x => { x with blocks := v.blocks }).writeBlock (.merge { e with tag := none }) v size e.blk

/-- Blocks of the buffer whose sectors are in are coded, oldest first: how many in a time is the device's choice (R275; a free
value). -/
def State.drainMerge (s : State) : State :=
  if s.tongs.merge = [] then s
  else
    let (k, s) := s.fresh
    let ready := s.tongs.merge.filter fun e => e.tag.isNone
    (ready.take (Config.pick k % (ready.length + 1))).foldl State.codeMerge s

/-- A block's old sectors arrive for the merge buffer. -/
def State.mergeArrives (s : State) (tag : Nat) : State :=
  s.modTongs fun t => { t with merge := modFirst (fun e => e.tag == some tag) (fun e => { e with tag := none }) t.merge }

/-- Entries of a version that is let go leave the buffer. -/
def State.mergeDrop (s : State) (idx : Nat) (cmd : Option Nat) : State :=
  s.modTongs fun t => { t with merge := t.merge.filter fun e => !(e.idx == idx && e.cmd == cmd) }

/-- A command's staged version of an object becomes current: its entries stay, and are charged at the next flip (R265). -/
def State.mergeFlip (s : State) (idx a : Nat) : State :=
  (s.mergeDrop idx none).modTongs fun t =>
    { t with merge := t.merge.map fun e => if e.idx = idx ∧ e.cmd = some a then { e with cmd := none } else e }

end Sys2Proof.Machine
end

