-- ==== Sys2Proof/Machine/Allocate.lean ====
section
/-!
DEFINITION. Allocation against quotas and tiers, automatic eviction, and the list of moves (R258 to R268, R302).
-/

namespace Sys2Proof.Machine

open Sys2Proof

/-! ## Moves (R258, Table 9.7) -/

/-- Moves that copy now (at most 16, R258). -/
def TongsSt.copying (t : TongsSt) : Nat := (t.moves.filter fun m => !m.waiting).length

/-- The move lock is taken for a move whose targets are allocated; its copy begins, or waits while 16 copy (R258, Table 9.7). -/
def State.startMove (s : State) (idx : Nat) (kind : MoveKind) (acceptNo : Nat) (tgt : Version) : State :=
  let s := s.modObj idx fun o => { o with phase := .copy, target := tgt.tier }
  (s.modTongs fun t =>
    { t with moves := t.moves ++
        [{ idx := idx, kind := kind, acceptNo := acceptNo, tgt := tgt, waiting := decide (16 ≤ t.copying) }] }).beginMoves

/-- The next waiting move starts to copy when fewer than 16 do (R258). -/
def TongsSt.nextMove (t : TongsSt) : TongsSt :=
  if t.copying < 16 then { t with moves := modFirst (fun m => m.waiting) (fun m => { m with waiting := false }) t.moves }
  else t

/-- A move leaves the list, and the next that waits begins its copy. -/
def State.endMove (s : State) (idx : Nat) : State :=
  ((s.modTongs fun t => ({ t with moves := t.moves.filter fun m => m.idx != idx }).nextMove).dropReqs (.move idx)).beginMoves

/-- The move of an object in COPY ends without a flip: its targets are freed and the lock returns to NONE. -/
def State.cancelMove (s : State) (idx : Nat) : State :=
  match s.tongs.moves.find? fun m => m.idx == idx, s.tongs.byIdx idx with
  | some m, some o => ((s.dropVersion o.owner m.tgt).endMove idx).modObj idx fun o => { o with phase := .none }
  | _, _ => s

/-! ## Allocations that wait (R266) -/

/-- The wait of an allocation: of a request, or of the targets of a move that no request asked for. -/
def AllocWait.is (w : AllocWait) (a : Nat) (auto : Option (Nat × MoveKind)) : Bool :=
  w.auto.map (·.1) == auto.map (·.1) && (auto.isSome || w.acceptNo == a)

/-- An allocation starts to wait for its evictions, or goes on waiting (R266). -/
def State.waitFor (s : State) (a : Nat) (auto : Option (Nat × MoveKind)) (code : Nat) : State :=
  if s.tongs.waits.any fun w => w.is a auto then
    s.modTongs fun t => { t with waits := modFirst (fun w => w.is a auto) (fun w => { w with code := code }) t.waits }
  else s.modTongs fun t =>
    { t with waits := t.waits ++ [{ acceptNo := a, until_ := s.edge + t.evictWait, code := code, auto := auto }] }

/-- The allocation of a request waits. -/
def State.waitAlloc (s : State) (a code : Nat) : State := s.waitFor a none code

/-- The allocation of a request waits no more. -/
def State.doneWait (s : State) (a : Nat) : State :=
  s.modTongs fun t => { t with waits := t.waits.filter fun w => !w.is a none }

/-- The targets of an eviction or of a move out of a slice wait no more. -/
def State.doneAuto (s : State) (idx : Nat) : State :=
  s.modTongs fun t => { t with waits := t.waits.filter fun w => w.auto.map (·.1) != some idx }

/-! ## Candidates (R267) -/

/-- An object can be evicted from tier `t` as things stand (R267), but for the move lock. -/
def State.evictable (s : State) (t : Nat) (o : Obj) : Bool :=
  o.cur.tier == t && o.st == .resident && o.evictable && !o.pin && o.stagedBy.isEmpty &&
    match s.lowerTier t with
    | none => false
    | some l => decide ((s.quota o.owner l).used + o.extents ≤ (s.quota o.owner l).limit)

/-- Candidates before the lock is looked at, in ascending LAST_USE, ties to the lowest INDEX. -/
def State.candidates (s : State) (t : Nat) (p : Obj → Bool) : List Obj :=
  sortBy (fun a b => a.lastUse < b.lastUse || (a.lastUse == b.lastUse && a.idx ≤ b.idx))
    (s.tongs.objs.filter fun o => s.evictable t o && p o)

/-- What the candidates whose lock is free can release. -/
def releasable (os : List Obj) : Nat := sumL ((os.filter fun o => o.phase = .none).map fun o => o.cur.charge)

/-- Evictions started over a list of candidates until the units that they will release cover a shortfall, and those units. One
whose lock is held is skipped and counted (R261); one that the evictions before it have made no candidate is passed over.
`k` counts evictions started (Table 9.18). -/
def State.evictList (evict : State → Nat → State) (t k : Nat) : List Obj → Nat → Nat → State → Nat × State
  | [], _, got, s => (got, s)
  | o :: os, need, got, s =>
    if need ≤ got then (got, s)
    else if o.phase ≠ .none then State.evictList evict t k os need got (s.tngCnt 11 1)
    else if (s.tongs.byIdx o.idx).any fun x => s.evictable t x && x.phase == .none then
      State.evictList evict t k os need (got + o.cur.charge) (evict (s.tngCnt k 1) o.idx)
    else State.evictList evict t k os need got s

/-! ## Allocation (R249, R264, R266, R277) -/

/-- Answer of an allocation (R266): it proceeds, waits for evictions, or fails with a code. -/
inductive Alloc where
  | ok
  | wait (code : Nat)
  | fail (code : Nat)
deriving DecidableEq, Repr

/-- What an allocation asks for: `n` extents of a tier for a client. `named` marks a RAW range of the host tier that the host
named, which takes no units of the pool. -/
structure Ask where
  client : Nat
  tier : Nat
  press : Bool
  named : Bool
  n : Nat
deriving DecidableEq, Repr

/-- Refusals of an allocation before units are counted: an absent tier, an empty pool, no free block map (R277, R249,
Table 9.12). -/
def State.tierRefusal (s : State) (t : Nat) (press : Bool) (n : Nat) : Option Nat :=
  if !s.tierUp t then some 0x55
  else if t = 2 ∧ press = true ∧ s.tongs.pool = [] then some 0x55
  else if press ∧ 1048576 < s.tongs.mapsUsed.length + n then some 0x58
  else none

/-- Units by which the quota and the tier fall short of an allocation (R266). RAW extents of far memory and of the host pool need
extents that are free as a whole (R272, R502). -/
def State.short (s : State) (a : Ask) : Nat × Nat :=
  let q := s.quota a.client a.tier
  let free := if a.press ∨ a.tier = 0 then s.tierFree a.tier else min (s.tierFree a.tier) (s.wholeFree a.tier)
  (q.used + a.n - q.limit, if a.named then 0 else a.n - free)

/-- R266 decides whether an allocation proceeds, and starts evictions where they can cover the shortfall. -/
def State.askUnits (s : State) (evict : State → Nat → State) (a : Ask) : Alloc × State :=
  let (qs, ts) := s.short a
  let own := s.candidates a.tier fun o => o.owner == a.client
  let all := s.candidates a.tier fun o => (s.quota o.owner a.tier).auto
  let failed := fun code => (Alloc.fail code, s.tngCnt 12 1)
  if qs = 0 ∧ ts = 0 then (.ok, s)
  else if 0 < qs ∧ (!(s.quota a.client a.tier).auto || decide (releasable own < qs)) = true then failed 0x51
  else if releasable all < ts then failed 0x52
  else
    let (got, s) := State.evictList evict a.tier 4 own qs 0 s
    let (_, s) := State.evictList evict a.tier 5 all ts got s
    (.wait (if 0 < qs then 0x51 else 0x52), s)

/-- Target of a move that no request asked for: the next lower tier, Press-coded, for an eviction (R267); another slice for a move
out of a slice that retires (R302). -/
def State.autoTarget (s : State) (o : Obj) (k : MoveKind) : Option (Nat × Bool) :=
  if k = .retire then some (0, false) else (s.lowerTier o.cur.tier).map fun l => (l, true)

/-- Such a move starts: the lock is taken, and its targets are allocated, waited for, or refused: the lock then returns to NONE
(R260, R266). -/
def State.autoMove (ask : State → Ask → Alloc × State) (kind : MoveKind) (s : State) (idx : Nat) : State :=
  match s.tongs.byIdx idx with
  | none => s
  | some o => match s.autoTarget o kind with
    | none => s
    | some (l, press) =>
      let s := s.modObj idx fun o => { o with phase := .copy, target := l }
      match ask s { client := o.owner, tier := l, press := press, named := false, n := o.extents } with
      | (.fail _, s) => (s.doneAuto idx).modObj idx fun o => { o with phase := .none }
      | (.wait code, s) => s.waitFor 0 (some (idx, kind)) code
      | (.ok, s) =>
        let (v, s) := (s.doneAuto idx).newVersion o.owner l press o.cur.place none o.extents {}
        s.startMove idx kind 0 v

/-- An allocation of units, with the evictions that it starts, and those that they start in turn in the tier below (R266, R267);
`fuel` is the number of tiers. -/
def State.askDeep : Nat → State → Ask → Alloc × State
  | 0, s, _ => (.fail 0x52, s)
  | fuel + 1, s, a =>
    match s.tierRefusal a.tier a.press a.n with
    | some code => (.fail code, s)
    | none => s.askUnits (State.autoMove (State.askDeep fuel) .auto) a

/-- An allocation that has started its evictions proceeds once the units are there, and else waits on (R266). -/
def State.askAgain (s : State) (a : Ask) : Alloc × State :=
  let (qs, ts) := s.short a
  if qs = 0 ∧ ts = 0 then (.ok, s) else (.wait (if 0 < qs then 0x51 else 0x52), s)

/-- An allocation (R266); `already` marks one that has started its evictions. -/
def State.ask (s : State) (already : Bool) (a : Ask) : Alloc × State :=
  match s.tierRefusal a.tier a.press a.n with
  | some code => (.fail code, s)
  | none => if already then s.askAgain a else s.askUnits (State.autoMove (State.askDeep 2) .auto) a

/-- A move that no request asked for starts, or goes on to its allocation. -/
def State.goAuto (s : State) (idx : Nat) (kind : MoveKind) (already : Bool) : State :=
  State.autoMove (fun s a => s.ask already a) kind s idx

end Sys2Proof.Machine
end

