-- ==== Sys2Proof/Machine/Slices.lean ====
section
/-!
DEFINITION. The rows of a Stockpot slice: the remap of rows and banks, segments and their XOR, the rebuild buffer, and the
merging of row writes (R28, R288 to R292, R299, R302).
-/

namespace Sys2Proof.Machine

open Sys2Proof

/-! ## Rows and banks (R288, R289, R302) -/

/-- Rows of a bank, spare rows among them, and physical rows of a slice (R288, R294). -/
def bankRows : Nat := 12352
/-- Physical rows of a slice: 130 banks of 12,288 rows and 64 spare rows (R294). -/
def physicalRows : Nat := 130 * bankRows

/-- The physical row of a physical bank that holds one of its rows (R289). -/
def Region.physRow (g : Region) (pb row : Nat) : Nat :=
  ((g.rowMap.find? fun x => x.1 == pb && x.2.1 == row).map (·.2.2)).getD row

/-- The physical bank that a bank is mapped to (R289). -/
def Region.physBank (g : Region) (bank : Nat) : Nat := alGet g.bankMap bank bank

/-- Physical bank and row of a bank and row (R289). While a bank is copied to a spare bank, the rows already copied are in the
spare bank (R302). -/
def Region.phys (g : Region) (bank row : Nat) : Nat × Nat :=
  let pb := g.physBank bank
  match g.sparing.find? fun x => x.bank == pb with
  | some x => if row < x.rows then (x.spare, g.physRow x.spare row) else (pb, g.physRow pb row)
  | none => (pb, g.physRow pb row)

/-- Row of a physical bank that a physical row holds, if any. -/
def Region.rowOf (g : Region) (pb pr : Nat) : Option Nat :=
  match g.rowMap.find? fun x => x.1 == pb && x.2.2 == pr with
  | some x => some x.2.1
  | none => if pr < 12288 ∧ (g.rowMap.any fun x => x.1 == pb && x.2.1 == pr) = false then some pr else none

/-- Bank and row that a physical row holds, if any. -/
def Region.logical (g : Region) (pb pr : Nat) : Option (Nat × Nat) :=
  let home := fun (b : Nat) => ((g.bankMap.find? fun x => x.2 == b).map (·.1)).getD b
  let banks := home pb :: (g.sparing.filter fun x => x.spare == pb).map fun x => home x.bank
  (g.rowOf pb pr).bind fun row =>
    (banks.find? fun b => decide (b < 128) && g.phys b row == (pb, pr)).map fun b => (b, row)

/-- Spare rows left in a physical bank: 64 less the rows retired and the rows under test (R299, Table 10.5). -/
def Region.spareLeft (g : Region) (pb : Nat) : Nat :=
  64 - (g.retiredRows.filter fun x => x.1 == pb).length - (g.testRows.filter fun x => x.1 == pb).length

/-- Physical rows of a physical bank that may serve as spare rows. -/
def Region.spares (g : Region) (pb : Nat) : List Nat :=
  let moved : List Nat := (g.rowMap.filter fun x => x.1 == pb).map fun x => x.2.1
  (((List.range 64).map (12288 + ·)) ++ moved).eraseDups.filter fun r =>
    (g.rowOf pb r).isNone && !g.retiredRows.contains (pb, r) && !g.testRows.contains (pb, r)

/-- A row is moved to a spare row of its physical bank, of the controller's choice (R299). -/
def State.useSpare (s : State) (r pb row : Nat) : State :=
  let (k, s) := s.fresh
  let xs := (s.region r).spares pb
  let to_ := xs.getD (Config.pick k % max 1 xs.length) 12288
  s.modRegion r fun g =>
    { g with rowMap := (g.rowMap.filter fun x => !(x.1 == pb && x.2.1 == row)) ++ [(pb, row, to_)] }

/-! ## Segments (R288, R289, R291) -/

/-- Slice, bank, row and segment of the byte at an offset of a Stockpot version (Tables 9.3 and 10.3). -/
def Version.segment (v : Version) (off : Nat) : Nat × Nat × Nat × Nat :=
  let l := bitsOf (v.where_ off) 12 0 * extentBytes + off % extentBytes
  (v.slice off, bitsOf l 19 13, bitsOf l 33 20, bitsOf l 12 8)

/-- Slice, physical bank and row, and segment of that byte. -/
def State.segAt (s : State) (v : Version) (off : Nat) : Nat × Nat × Nat × Nat :=
  let k := v.segment off
  let p := (s.region k.1).phys k.2.1 k.2.2.1
  (k.1, p.1, p.2, k.2.2.2)

/-- The version, and its extent, that a Stockpot extent belongs to: WHERE of Table 9.3. -/
def State.stockHolder (s : State) (w : Nat) : Option (Version × Nat) :=
  s.versions.findSome? fun v => if v.tier = 0 then (v.wheres.findIdx? (· == w)).map fun i => (v, i) else none

/-- The byte at location `l` of slice `r` (R289). -/
def State.stockByte (s : State) (r l : Nat) : Byte :=
  match s.stockHolder (8192 * r + l / extentBytes) with
  | some (v, i) => v.content.read (i * extentBytes + l % extentBytes)
  | none => Config.stockByte r l

/-- User byte `i` of a physical row of slice `r` (R288). -/
def State.userByte (s : State) (r pb pr i : Nat) : Byte :=
  match (s.region r).logical pb pr with
  | some (b, row) => s.stockByte r (row * 2 ^ 20 + b * 2 ^ 13 + i)
  | none => Config.stockByte r (2 ^ 34 + (pb * bankRows + pr) * 8192 + i)

/-- Byte `j` of segment `seg` of a physical row; segment 32 is the XOR of the other 32 (R288). -/
def State.segByte (s : State) (r pb pr seg j : Nat) : Byte :=
  if seg < 32 then s.userByte r pb pr (256 * seg + j)
  else (List.range 32).foldl (fun x i => x ^^^ s.userByte r pb pr (256 * i + j)) 0

/-- A segment as it is reconstructed: the XOR of the other 32 of its row (R291). -/
def State.xorSegment (s : State) (k : Nat × Nat × Nat × Nat) : List Byte :=
  (List.range 256).map fun j =>
    ((List.range 33).filter (· != k.2.2.2)).foldl (fun x i => x ^^^ s.segByte k.1 k.2.1 k.2.2.1 i j) 0

/-! ## The rebuild buffer (R291, R292) -/

/-- The rebuild-buffer entry of a segment. -/
def State.rebuildOf (s : State) (k : Nat × Nat × Nat × Nat) : Option Rebuild :=
  (s.region k.1).rebuild.find? fun e => e.bank == k.2.1 && e.row == k.2.2.1 && e.seg == k.2.2.2

/-- A reconstruction starts: it claims an entry, or waits while all 8 are held (R292). -/
def State.claimRebuild (s : State) (k : Nat × Nat × Nat × Nat) : State :=
  if (s.rebuildOf k).isSome ∨ 8 ≤ (s.region k.1).rebuild.length then s
  else s.modRegion k.1 fun g =>
    { g with rebuild := g.rebuild ++ [{ bank := k.2.1, row := k.2.2.1, seg := k.2.2.2, done := false }] }

/-- Writes to rows of a slice are applied to the entries that hold their segments too (R292). -/
def State.refreshRebuild (s : State) (r : Nat) : State :=
  if (s.region r).rebuild = [] then s
  else s.modRegion r fun g =>
    { g with rebuild := g.rebuild.map fun e => if e.done then { e with bytes := s.xorSegment (r, e.bank, e.row, e.seg) } else e }

/-! ## Row writes (R290) -/

/-- All 32 segments of a row. -/
def fullMask : Nat := 2 ^ 32 - 1

/-- Segments of a physical row that a store covers whole, as a mask: `segs` are those that it touches, each with whether it
covers it. -/
def maskOf (segs : List (Nat × Bool)) : Nat := segs.foldl (fun m x => if x.2 then m ||| 2 ^ x.1 else m) 0

/-- A store to a row: with the stores of the last 64 cycles it may cover the row, which is then one full-row write (R290). -/
def State.storeRow (s : State) (r pb pr mask : Nat) : State :=
  let is := fun (x : OpenRow) => x.bank == pb && x.row == pr
  let old := (((s.region r).openRows.find? is).map (·.mask)).getD 0
  if old ||| mask = fullMask then
    (s.modRegion r fun g => { g with openRows := g.openRows.filter fun x => !is x }).rgnCnt r 6 1
  else s.modRegion r fun g =>
    { g with openRows := if g.openRows.any is then modFirst is (fun x => { x with mask := old ||| mask }) g.openRows
      else g.openRows ++ [{ bank := pb, row := pr, mask := mask, edge := s.edge }] }

/-- A free number for a physical row of slice `r` at a beat edge, which the manual leaves to the instant. -/
def rowChance (r pb pr edge : Nat) : Nat := Config.cycles (192 + r + 16 * (pb + 130 * pr)) edge

/-- Rows of slice `r` that `n` beats have left open no longer: each is a partial write (R290). Whether 64 cycles reach from one beat
into the next is a free choice. -/
def Region.closeRows (g : Region) (r edge n : Nat) : Region :=
  let stays := fun (x : OpenRow) => n == 1 && x.edge == edge && rowChance r x.bank x.row edge % 2 == 1
  { g with
    openRows := g.openRows.filter stays
    cnt := bumpBy g.cnt 5 (g.openRows.filter fun x => !stays x).length }

/-- Rows of a bank that have been copied to its spare bank once beats have passed: a free value (R302). -/
def Region.copyOn (g : Region) (r edge : Nat) : Region :=
  { g with sparing := g.sparing.map fun x => { x with rows := x.rows + rowChance r x.bank bankRows edge % (12289 - x.rows) } }

/-- What the controller of slice `r` does over `n` beats that begin at an edge. -/
def Region.beats (r edge n : Nat) (g : Region) : Region :=
  if g.openRows = [] ∧ g.sparing = [] then g else (g.closeRows r edge n).copyOn r edge

/-! ## Access to a slice by the state of its die (R28, Table 1.6) -/

/-- What Table 1.6 does with an access of the Tongs to slice `r`: 0 it goes on, 1 it is held, 2 it fails with 0x14. -/
def State.sliceAccess (s : State) (r : Nat) : Nat :=
  if (s.region r).inReset then 2
  else match (s.die (sliceDie r)).st with
    | .active => 0
    | .brownHold => 1
    | _ => 2

/-- What becomes of a copy to or from a version: the extents of a Stockpot version by the state of their dies; far memory is held
while VDDQ_LP is low (R417). -/
def State.copyAccess (s : State) (v : Version) : Nat :=
  match v.tier with
  | 0 => maxL 0 ((v.wheres.map (· / 8192)).eraseDups.map s.sliceAccess)
  | 1 => if (vget s.power.rails 8).st = 1 then 1 else 0
  | _ => 0

end Sys2Proof.Machine
end

