-- ==== Sys2Proof/Machine/Streams.lean ====
section
/-!
DEFINITION. The stream and gather engines: descriptors, granules, tags, regulators, issue, delivery, watches and the
races that a fetch can decide (R87 to R92, R196 to R227).
-/

namespace Sys2Proof.Machine

open Sys2Proof

/-- Bytes of the Skillet (R104). -/
def skilletBytes : Nat := 0x800000

/-! ## Tokens and races -/

/-- An instruction of queue `q` at `pc` has completed: its signal acts in the next cycle (R81, R82). -/
def State.signal (s : State) (n tk v q pc : Nat) : State :=
  if v = 0 ∨ (s.core n).busy = false then s
  else s.modCore n fun c => { c with sigs := c.sigs ++ [{ tk := tk, amount := v, q := q, pc := pc }] }

/-- A token counter raised by an amount (R81); above 65,535 it is not raised, and fault 0x4A is raised. -/
def State.applySig (s : State) (n : Nat) (g : TokSig) : State :=
  if (s.core n).busy = false then s
  else if 65535 < vget (s.core n).t g.tk + g.amount then s.raiseFault n g.q 0x4A g.pc .none
  else s.modCore n fun c => { c with t := vset c.t g.tk (vget c.t g.tk + g.amount) }

/-- Signals of one cycle are added together (R82). -/
def State.applySigs (s : State) (n : Nat) (l : List TokSig) : State := l.foldl (fun s g => s.applySig n g) s

/-- The core makes progress in this beat (R96). -/
def State.progressed (s : State) (n : Nat) : State := s.modCore n fun c => { c with progress := true }

/-- The deadline beat of a race slot (R87, R57). -/
def CoreSt.deadline (c : CoreSt) (slot : Nat) : Nat := c.beatBase + (vget c.races slot).dl

/-- A race slot changes its state. -/
def CoreSt.setRace (c : CoreSt) (slot : Nat) (st : RaceState) : CoreSt :=
  { c with races := vmod c.races slot fun r => { r with st := st } }

/-- The fetch of a race is cancelled: removed from the queue, or the epoch of every tag it holds advanced (R89). -/
def CoreSt.cancelFetch (c : CoreSt) (slot : Nat) : CoreSt :=
  let ids := (c.sm.xfers.filter fun x => x.e.race == some slot && !x.won).map (·.id)
  { c with
    queues := vmod c.queues 2 (fun l => l.filter fun e => e.race != some slot)
    sm := { c.sm with
      xfers := c.sm.xfers.filter fun x => x.e.race != some slot || x.won
      tags := vmap c.sm.tags fun t => match t.g with
        | some (_, g) =>
          if ids.contains g.xfer && !t.col then { t with epoch := t.epoch + 1, cancelled := true } else t
        | none => t } }

/-- A PENDING race becomes LOST, counted at index `k` of SEQ_CNT (R88 to R92). -/
def State.loseRace (s : State) (n slot k : Nat) : State :=
  s.modCore n fun c =>
    if (vget c.races slot).st = .pending then ((c.cancelFetch slot).setRace slot .lost).seqBump k 1 else c

/-- A PENDING race becomes WON and its header signal acts (R87, R88). -/
def State.winRace (s : State) (n slot pc : Nat) : State :=
  let r := vget (s.core n).races slot
  if r.st = .pending then
    (s.modCore n fun c => (c.setRace slot .won).seqBump 0 1).signal n r.stok r.sval 0 pc
  else s

/-- Every PENDING race whose deadline beat is reached is LOST (R88, R89). -/
def State.passDeadlines (s : State) (n : Nat) : State :=
  (List.range 4).foldl (fun s slot =>
    if (vget (s.core n).races slot).st = .pending ∧ (s.core n).deadline slot ≤ s.now then s.loseRace n slot 1
    else s) s

/-! ## Descriptors (R196 to R199, R219) -/

/-- A descriptor read from its 64 bytes (Tables 7.1 and 7.2). -/
def descOf (b : List Byte) : Desc :=
  let ctl := leAt b 4 4
  { handle := leAt b 0 4, dir := bitOf ctl 0, ndim := bitsOf ctl 2 1, whisk := bitsOf ctl 4 3, watch := bitOf ctl 5
    ra := bitOf ctl 6, sig := bitOf ctl 7, stok := bitsOf ctl 13 8, sval := bitsOf ctl 17 14, msig := bitOf ctl 18
    mtok := bitsOf ctl 24 19, offset := leAt b 8 8, skl := leAt b 16 4, len0 := leAt b 20 4
    n1 := leAt b 24 2, n2 := leAt b 26 2, n3 := leAt b 28 2
    ts1 := sextN 48 (leAt b 32 6), ts2 := sextN 48 (leAt b 38 6), ts3 := sextN 48 (leAt b 44 6)
    ss1 := sextN 32 (leAt b 50 4), ss2 := sextN 32 (leAt b 54 4), ss3 := sextN 32 (leAt b 58 4) }

/-- Element size of a Whisk descriptor. -/
def Desc.esz (d : Desc) : Nat := if d.whisk = 2 then 4 else 2

/-- A dimension beyond NDIM that is not all zero (R197). -/
def dimBad (used : Bool) (n : Nat) (ts ss : Int) : Bool := !used && (n != 0 || ts != 0 || ss != 0)

/-- Fields that the tables do not allow: fault 0x48 (R196, R197, R199, R219). -/
def descBad (b : List Byte) : Bool :=
  let d := descOf b
  leAt b 4 4 / 2 ^ 25 != 0 || leAt b 30 2 != 0 || leAt b 62 2 != 0
    || decide (2 ^ 40 ≤ d.offset) || decide (2 ^ 23 ≤ d.skl) || d.len0 == 0 || decide (8388608 < d.len0)
    || d.whisk == 3 || (d.sig == (d.sval == 0))
    || (d.dir && (d.whisk != 0 || d.watch || d.ra))
    || dimBad (1 ≤ d.ndim) d.n1 d.ts1 d.ss1 || dimBad (2 ≤ d.ndim) d.n2 d.ts2 d.ss2 || dimBad (3 ≤ d.ndim) d.n3 d.ts3 d.ss3
    || (d.whisk != 0 && (d.ndim == 0 || d.offset % 64 != 0 || d.len0 % 64 != 0 || d.ts1 % 64 != 0 || d.skl % 64 != 0
      || d.ss1 % 64 != 0 || (d.n1 + 1) % 32 != 0))

/-- Lowest and one past the highest value of `base + Σ i_k · stride_k`, with `tail` bytes at each. -/
def spanOf (base : Nat) (tail : Nat) (dims : List (Nat × Int)) : Int × Int :=
  let ext := dims.map fun d => (d.1 : Int) * d.2
  ((base : Int) + (ext.filter (· < 0)).foldl (· + ·) 0, (base : Int) + (ext.filter (0 < ·)).foldl (· + ·) 0 + tail)

/-- Object bytes that a descriptor names. -/
def Desc.objSpan (d : Desc) : Int × Int := spanOf d.offset d.len0 [(d.n1, d.ts1), (d.n2, d.ts2), (d.n3, d.ts3)]

/-- Skillet bytes that a descriptor names (R197, R220). -/
def Desc.sklSpan (d : Desc) : Int × Int :=
  if d.whisk = 0 then spanOf d.skl d.len0 [(d.n1, d.ss1), (d.n2, d.ss2), (d.n3, d.ss3)]
  else spanOf d.skl ((d.n1 + 1) * d.esz) [(d.len0 / d.esz - 1, d.ss1), (d.n2, d.ss2), (d.n3, d.ss3)]

/-- The program region of a core's command ends here (R71). -/
def CoreSt.progEnd (c : CoreSt) : Nat := roundUp c.progLen 1024

/-- The checks of R199 on a descriptor of core `n`, in their order: the code of the first that fails. -/
def State.descFault (s : State) (n : Nat) (b : List Byte) : Option Nat :=
  let d := descOf b
  let sp := d.sklSpan
  if descBad b then some 0x48
  else if sp.1 < 0 ∨ (skilletBytes : Int) < sp.2 then some 0x15
  else if !d.dir ∧ sp.1 < ((s.core n).progEnd : Int) then some 0x16
  else match s.engineTarget n d.handle d.dir with
    | .error code => some code
    | .ok t => if d.objSpan.1 < 0 ∨ (t.obj.size : Int) < d.objSpan.2 then some 0x1D else none

/-! ## Granules of a descriptor (R197, R198, R220) -/

/-- Runs of a plain descriptor, or tiles of a Whisk descriptor. -/
def Desc.runs (d : Desc) : Nat :=
  let outer := (d.n2 + 1) * (d.n3 + 1)
  if d.whisk = 0 then (d.n1 + 1) * outer else (d.n1 + 1) / 32 * (d.len0 / 64) * outer

/-- The granule at a position of a descriptor: its pieces, its first object byte, its span, and the position after it. -/
def Desc.granAt (d : Desc) (run pos : Nat) : List Piece × Nat × Nat × Nat × Nat :=
  if d.whisk = 0 then
    let i1 := run % (d.n1 + 1)
    let i2 := run / (d.n1 + 1) % (d.n2 + 1)
    let i3 := run / (d.n1 + 1) / (d.n2 + 1)
    let at_ := fun (b : Nat) (x y z : Int) => ((b : Int) + i1 * x + i2 * y + i3 * z).toNat + pos
    let o := at_ d.offset d.ts1 d.ts2 d.ts3
    let len := min (d.len0 - pos) (2048 - o % 2048)
    let next := if pos + len < d.len0 then (run, pos + len) else (run + 1, 0)
    ([{ obj := o, skl := at_ d.skl d.ss1 d.ss2 d.ss3, len := len }], o, len, next.1, next.2)
  else
    let nb := d.len0 / 64
    let na := (d.n1 + 1) / 32
    let b := run % nb
    let a := run / nb % na
    let i2 := run / nb / na % (d.n2 + 1)
    let i3 := run / nb / na / (d.n2 + 1)
    let e := d.esz
    let rowObj := fun (r : Nat) => ((d.offset : Int) + (32 * a + r : Nat) * d.ts1 + i2 * d.ts2 + i3 * d.ts3).toNat + 64 * b
    let cell := fun (r k : Nat) => ((d.skl : Int) + i2 * d.ss2 + i3 * d.ss3 + (64 * b / e + k : Nat) * d.ss1).toNat
      + (32 * a + r) * e
    let ps := (List.range 32).flatMap fun r => (List.range (64 / e)).map fun k =>
      { obj := rowObj r + k * e, skl := cell r k, len := e }
    (ps, rowObj 0, 2048, run + 1, 0)

/-! ## Colander entries (R222 to R226) -/

/-- Entry `i` is active (R165, R224). -/
def maskBit (m : Mem) (mask : Option Nat) (i : Nat) : Bool :=
  match mask with
  | none => true
  | some a => bitOf (m.read (a + i / 8)).toNat (i % 8)

/-- Index of entry `i`. -/
def colIndex (m : Mem) (c : ColSt) (i : Nat) : Nat := m.readLE (c.idxAddr + 4 * i) 4

/-- The next granule of a Colander instruction from entry `i` on, over at most `fuel` entries: the elements taken so
far (entry, object byte, newest first), the entry after them, and the entries skipped (R223, R224). A gather joins
indices that do not decrease; an element outside the object, or one that leaves the 2 KiB block, starts anew. -/
def colRun (m : Mem) (c : ColSt) (gather : Bool) (size : Nat) :
    Nat → Nat → List (Nat × Nat) → Nat → List (Nat × Nat) × Nat × Nat
  | 0, i, acc, sk => (acc, i, sk)
  | fuel + 1, i, acc, sk =>
    if maskBit m c.mask i then
      let o := c.base + colIndex m c i * c.esz
      let inRange := decide (o + c.esz ≤ size)
      let joins := match acc with
        | [] => true
        | (_, p) :: _ =>
          inRange && o / 2048 == p / 2048 && (o + c.esz - 1) / 2048 == o / 2048 && (p + c.esz - 1) / 2048 == p / 2048
            && (!gather || decide (p ≤ o))
      if joins then
        if inRange then colRun m c gather size fuel (i + 1) ((i, o) :: acc) sk else ((i, o) :: acc, i, sk)
      else (acc, i, sk)
    else colRun m c gather size fuel (i + 1) acc (sk + 1)

/-! ## Delivery and acceptance (R202, R208 to R217) -/

/-- The bytes of a granule at an object byte, from the runs it carries. -/
def dataAt (d : List (Nat × List Byte)) (o len : Nat) : List Byte :=
  match d.find? fun r => decide (r.1 ≤ o) && decide (o + len ≤ r.1 + r.2.length) with
  | some r => (r.2.drop (o - r.1)).take len
  | none => List.replicate len 0

/-- The pieces of a fetched granule written to the Skillet. -/
def writePieces (d : List (Nat × List Byte)) (ps : List Piece) (m : Mem) : Mem :=
  ps.foldl (fun m p => m.writeN p.skl (dataAt d p.obj p.len)) m

/-- An XFER changed. -/
def StreamSt.modXfer (m : StreamSt) (id : Nat) (f : XferSt → XferSt) : StreamSt :=
  { m with xfers := modFirst (fun x => x.id == id) f m.xfers }

/-- A descriptor of an XFER changed. -/
def StreamSt.modDesc (m : StreamSt) (id idx : Nat) (f : DescSt → DescSt) : StreamSt :=
  m.modXfer id fun x => { x with descs := modFirst (fun d => d.idx == idx) f x.descs }

/-- The XFER with an id. -/
def StreamSt.xfer (m : StreamSt) (id : Nat) : Option XferSt := m.xfers.find? fun x => x.id == id

/-- A descriptor being worked on. -/
def StreamSt.desc (m : StreamSt) (id idx : Nat) : Option DescSt :=
  (m.xfer id).bind fun x => x.descs.find? fun d => d.idx == idx

/-- A change of a core's stream engines. -/
def State.modSm (s : State) (n : Nat) (f : StreamSt → StreamSt) : State := s.modCore n fun c => { c with sm := f c.sm }

/-- A tag returns to the pool. -/
def StreamSt.freeTag (m : StreamSt) (tag : Nat) : StreamSt :=
  { m with tags := vmod m.tags tag fun t => { t with g := none, cancelled := false }
           lastCol := m.lastCol }

/-- An XFER whose descriptors have all completed is complete; a race that it fetched for is WON (R88, R201). -/
def State.finishXfer (s : State) (n id : Nat) : State :=
  match (s.core n).sm.xfer id with
  | none => s
  | some x =>
    if x.nextDesc = x.count ∧ x.descs = [] then
      let s := s.modCore n fun c => { c with sm := { c.sm with xfers := c.sm.xfers.filter fun y => y.id != id } }
      if x.prog ∨ x.won then s
      else match x.e.race with
      | some slot => s.winRace n slot x.e.pc
      | none => ((s.modCore n fun c => c.ldlBump 0 1).signal n x.e.h.stok.toNat x.e.h.sval.toNat 3 x.e.pc).progressed n
    else s

/-- Tier locations that a watched descriptor read (R211): a Stockpot slice, or 16 for far memory. -/
def DescSt.locations (d : DescSt) : List Nat := ((d.landed.filter fun g => g.tier != 2).flatMap fun g => if g.tier = 0 then g.slices else [16]).eraseDups

/-- The last granule of a race's fetch is written: the race is WON, also where a watch of the fetch is still open (R88). -/
def State.landRace (s : State) (n : Nat) (x : XferSt) : State :=
  match x.e.race, x.won with
  | some slot, false => (s.modSm n fun m => m.modXfer x.id fun x => { x with won := true }).winRace n slot x.e.pc
  | _, _ => s

/-- A descriptor is complete when every granule is written or accepted and, for WATCH, its watch is closed (R201,
R211). A watched descriptor whose granules have all landed sends its closes. -/
def State.checkDesc (s : State) (n id idx : Nat) : State :=
  match (s.core n).sm.xfer id, (s.core n).sm.desc id idx with
  | some x, some d =>
    if d.issued ∧ d.outstanding = 0 ∧ d.again = [] ∧ d.closes = 0 then
      if d.d.watch ∧ !d.closing ∧ d.locations ≠ [] then
        let s := s.modSm n fun m => m.modDesc id idx fun d => { d with closing := true, closes := d.locations.length }
        let s := s.landRace n x
        { s with outbox := s.outbox ++ d.locations.map fun l => OutItem.close n l }
      else
        let s := s.modSm n fun m => m.modXfer id fun x =>
          { x with descs := x.descs.filter fun y => y.idx != idx, doneDescs := x.doneDescs + 1 }
        let s := if x.prog then s else (s.modCore n fun c => c.ldlBump 1 1).progressed n
        let s := if d.d.sig then s.signal n d.d.stok d.d.sval 3 x.e.pc else s
        let s := if d.d.msig then s.signal n d.d.mtok d.dropped 3 x.e.pc else s
        s.finishXfer n id
    else s
  | _, _ => s

/-- A Colander instruction whose entries are all taken and delivered is complete (R226). -/
def State.checkCol (s : State) (n id : Nat) : State :=
  match (s.core n).sm.cols.find? fun c => c.id == id with
  | none => s
  | some c =>
    if c.pos = c.count ∧ c.outstanding = 0 then
      let s := s.modCore n fun k => ({ k with sm := { k.sm with cols := k.sm.cols.filter fun y => y.id != id } }).colBump 0 1
      (s.signal n c.e.h.stok.toNat c.e.h.sval.toNat 4 c.e.pc).progressed n
    else s

/-- One granule of a descriptor or Colander instruction is no longer outstanding. -/
def StreamSt.dropOut (m : StreamSt) (col : Bool) (g : Granule) : StreamSt :=
  if col then
    { m with cols := modFirst (fun c => c.id == g.xfer) (fun c => { c with outstanding := c.outstanding - 1 }) m.cols }
  else m.modDesc g.xfer g.desc fun d => { d with outstanding := d.outstanding - 1 }

/-- The instruction that a granule belongs to may have become complete. -/
def State.checkDone (s : State) (n : Nat) (col : Bool) (g : Granule) : State :=
  if col then s.checkCol n g.xfer else s.checkDesc n g.xfer g.desc

/-- A granule's response is dropped for a stale epoch: counted, and its tag returns to the pool (R203, R89). A watched
granule that became stale in flight is issued again. -/
def State.dropStale (s : State) (n tag : Nat) : State :=
  let t := vget (s.core n).sm.tags tag
  match t.g with
  | none => s
  | some (_, g) =>
    let s := s.modCore n fun c => if t.cancelled then c.seqBump 4 1 else c.ldlBump 13 1
    let s := s.modSm n fun m =>
      let m := m.freeTag tag
      if g.stale then
        m.modDesc g.xfer g.desc fun d =>
          { d with outstanding := d.outstanding - 1, again := d.again ++ [{ g with stale := false, data := [] }] }
      else m
    s

/-- A fetched granule is written to the Skillet and its tag freed (R202, R208). The Whisk writes it as a tile (R221).
A race whose deadline is reached is LOST before: its granule is dropped (R88, R89). -/
def State.deliver (s : State) (n tag : Nat) : State :=
  let s := s.passDeadlines n
  let t := vget (s.core n).sm.tags tag
  match t.g with
  | none => s
  | some (e, g) =>
    if e ≠ t.epoch then s.dropStale n tag else
    let s := s.modCore n fun c => { c with skillet := writePieces g.data g.pieces c.skillet, progress := true }
    let s := s.modSm n fun m => (m.freeTag tag).dropOut t.col g
    let bytes := sumL (g.pieces.map (·.len))
    let s := s.modCore n fun c =>
      if t.col then (c.colBump 1 g.elements).colBump 4 bytes
      else
        let c := (c.ldlBump 2 1).ldlBump 4 bytes
        if g.kind = .whisk then c.ldlBump 9 1 else c
    let s :=
      if t.col then s
      else match (s.core n).sm.desc g.xfer g.desc with
        | none => s
        | some d =>
          if d.d.watch then
            let s := s.modSm n fun m => m.modDesc g.xfer g.desc fun d => { d with landed := d.landed ++ [g] }
            if g.tier = 2 then s.modCore n fun c => c.ldlBump 8 1 else s
          else s
    s.checkDone n t.col g

/-- A granule of a core, watched and overlapped by a write, becomes stale (R210); the fourth time raises 0x1B (R213). -/
def State.staleGran (s : State) (n : Nat) (g : Granule) (tag : Option Nat) : State :=
  let pc := match (s.core n).sm.xfer g.xfer with
    | some x => x.e.pc
    | none => 0
  if 4 ≤ g.staleCount + 1 then s.raiseFault n 3 0x1B pc (.object g.handle g.obj)
  else
    let g' := { g with staleCount := g.staleCount + 1 }
    match tag with
    | some t =>
      s.modSm n fun m => { m with tags := vmod m.tags t fun x =>
        { x with epoch := x.epoch + 1, g := x.g.map fun p => (p.1, { g' with stale := true }) } }
    | none =>
      s.modSm n fun m => m.modDesc g.xfer g.desc fun d =>
        { d with landed := dropFirst (fun x => x == g) d.landed, closing := false, again := d.again ++ [{ g' with data := [] }] }

/-- A granule reads one of the written ranges. -/
def Granule.overlaps (g : Granule) (ws : List (Nat × Nat)) : Bool :=
  g.pieces.any fun p => ws.any fun w => rangesMeet p.obj p.len w.1 w.2

/-- A write accepted to ranges of a version of a command's object: the watched granules that read them become stale
(R210). Host-tier granules are not watched (R214). -/
def State.markStale (s : State) (cmd : Option Nat) (h : Nat) (ws : List (Nat × Nat)) : State :=
  (List.range 192).foldl (fun s n =>
    let c := s.core n
    if c.cmd = cmd ∧ c.busy = true then
      let hit := fun (g : Granule) => g.handle == h && g.staged && g.tier != 2 && g.overlaps ws
      let watched := fun (g : Granule) => match c.sm.desc g.xfer g.desc with
        | some d => d.d.watch
        | none => false
      let fl := (List.range 64).filterMap fun t =>
        let x := vget c.sm.tags t
        match x.g with
        | some (e, g) => if !x.col && e == x.epoch && hit g && watched g then some (g, some t) else none
        | none => none
      let ld := c.sm.xfers.flatMap fun x => x.descs.flatMap fun d =>
        if d.d.watch then (d.landed.filter hit).map fun g => (g, (none : Option Nat)) else []
      (fl ++ ld).foldl (fun s p => s.staleGran n p.1 p.2) s
    else s) s

/-- The ranges that a store granule writes. -/
def Granule.ranges (g : Granule) : List (Nat × Nat) := g.pieces.map fun p => (p.obj, p.len)

/-- The blocks that ranges of bytes lie in. -/
def blocksOf (ws : List (Nat × Nat)) : List Nat :=
  (ws.flatMap fun w => (List.range ((w.1 + w.2 - 1) / 4096 - w.1 / 4096 + 1)).map (w.1 / 4096 + ·)).eraseDups

/-- A store granule is accepted by its tier: every later read returns the stored bytes (R208); its tag frees. The bytes
of a RAW host-tier version are the host's; those of a Press-coded one enter the merge buffer (R275). No granule covers a
whole block (R201). -/
def State.accept (s : State) (n tag : Nat) : State :=
  let c := s.core n
  let t := vget c.sm.tags tag
  match t.g with
  | none => s
  | some (e, g) =>
    let live := e == t.epoch
    let s := match c.cmd.bind s.getCmd with
      | none => s
      | some k =>
        match (k.use g.handle).bind (·.staged) with
        | none => s
        | some v =>
          let hostRaw := v.tier == 2 && !v.press
          let put := fun (m : Mem) => g.data.foldl (fun (m : Mem) (r : Nat × List Byte) => m.writeN r.1 r.2) m
          let s := if hostRaw then s else s.modStaged k.acceptNo g.handle fun v => { v with content := put v.content }
          let s := match v.press, s.tongs.byHandle g.handle with
            | true, some o => (blocksOf g.ranges).foldl (State.mergeIn o.idx k.acceptNo) s
            | _, _ => s
          s.markStale c.cmd g.handle g.ranges
    let s := s.modSm n fun m => (m.freeTag tag).dropOut t.col g
    if live then
      let bytes := sumL (g.pieces.map (·.len))
      let s := s.modCore n fun c =>
        if t.col then (c.colBump 2 g.elements).colBump 4 bytes else (c.ldlBump 3 1).ldlBump 5 bytes
      s.checkDone n t.col g
    else s.modCore n fun c => if t.cancelled then c.seqBump 4 1 else c.ldlBump 13 1

/-! ## Issue (R201, R202, R206, R212) -/

/-- A fault of a granule's access on core `n` (R28, R216, R225, R282): the fetch of a race loses its race to a LOST
object or a host page instead (R92, R282). -/
def State.granFault (s : State) (n : Nat) (col : Bool) (g : Granule) (code off : Nat) : State :=
  let c := s.core n
  let (pc, race) : Nat × Option Nat := if col then
      ((match c.sm.cols.find? fun x => x.id == g.xfer with
        | some x => x.e.pc
        | none => 0), none)
    else match c.sm.xfer g.xfer with
      | some x => (x.e.pc, if x.won then none else x.e.race)
      | none => (0, none)
  let q := if col then 4 else 3
  match race with
  | some slot =>
    if code = 0x1C ∨ code = 0x59 then
      (s.logEv { coreEv n q code with pc := bitsOf pc 22 4, addr := .object g.handle off, acceptNo := c.cmd.getD 0 }).loseRace n slot 3
    else s.raiseFault n q code pc (.object g.handle off)
  | none => s.raiseFault n q code pc (.object g.handle off)

/-- A granule with the tier and slice that its object now has, or the code of its fault (R28, R219). -/
def State.locate (s : State) (n : Nat) (g : Granule) : Except Nat (Granule × Target) :=
  match s.engineTarget n g.handle (g.kind = .store ∨ g.kind = .scatter) with
  | .error code => .error code
  | .ok t =>
    let tier := t.ver.tier
    let slice := if tier = 0 then t.ver.slice g.obj else 16
    let slices := if tier = 0 then (g.pieces.map fun p => t.ver.slice p.obj).eraseDups else []
    if g.kind = .whisk ∧ tier = 2 then .error 0x48
    else
      let g := { g with tier := tier, slice := slice, slices := slices, staged := t.staged, home := t.ver.bare }
      let sts := slices.map fun r => if (s.region r).inReset then DieState.reset else (s.die (sliceDie r)).st
      if sts.all (fun x => x == .active) = true then .ok (g, t)
      else if sts.all (fun x => x == .active || x == .brownHold) = true then .ok ({ g with held := true }, t)
      else .error 0x14

/-- Bytes that the regulator charges (R206): the granule's bytes, or the span of a gather. -/
def Granule.cost (g : Granule) : Nat := if g.kind = .gather then g.span else sumL (g.pieces.map (·.len))

/-- The regulator lets a granule of a tier pass (R206, R207): with RATE 0 none, and a program read always (R72). -/
def StreamSt.passes (m : StreamSt) (g : Granule) : Bool :=
  let b := vget m.buckets g.tier
  g.kind == .load || !b.enable || (b.rate != 0 && decide (g.cost ≤ b.level))

/-- LEVEL falls by the charge, which is counted (R206, Table 7.13). A program read is not charged (R72). -/
def CoreSt.charge (c : CoreSt) (g : Granule) : CoreSt :=
  if g.kind = .load then c
  else
    ({ c with sm := { c.sm with
      buckets := vmod c.sm.buckets g.tier fun b => if b.enable then { b with level := b.level - g.cost } else b } }).ldlBump
        (10 + g.tier) g.cost

/-- The lowest free tag. -/
def StreamSt.freeTagNo (m : StreamSt) : Option Nat := (List.range 64).find? fun t => (vget m.tags t).g == none

/-- Watched descriptors between their first granule and their completion (R212). -/
def StreamSt.watched (m : StreamSt) : Nat :=
  sumL (m.xfers.map fun x => (x.descs.filter fun d => d.watching).length)

/-- The parts of `len` bytes from `o` on that lie in one 4 KiB page each (R278). -/
def pageParts (o len : Nat) : List (Nat × Nat) :=
  let first := min len (4096 - o % 4096)
  if first = len then [(o, len)] else [(o, first), (o + first, len - first)]

/-- The requests to the host that a granule of a host-tier version needs (R275, R278): a RAW version is read or written
byte by byte; of a Press-coded one the sectors of each block are read, and stores go to the merge buffer. -/
def State.hostRequests (s : State) (n tag : Nat) (g : Granule) : List Nat × State :=
  let v := g.home
  let store := g.kind = .store ∨ g.kind = .scatter
  let step := fun (p : List Nat × State) (o : Nat) (len : Nat) (w : Option (List Byte)) =>
    let (addr, l) := if v.press then (p.2.sectorAddr (((v.block o).map (·.first)).getD 0), 1024 * v.sectors o) else (v.rawAddr o, len)
    if l = 0 then p
    else
      let (t, s) := p.2.askHostAs n (.granule n tag) w addr l o
      (p.1 ++ [t], s)
  if store then
    if v.press then ([], s)
    else
      (g.data.flatMap fun r => (pageParts r.1 r.2.length).map fun x => (x, (r.2.drop (x.1 - r.1)).take x.2)).foldl
        (fun p x => step p x.1.1 x.1.2 (some x.2)) ([], s)
  else (pageParts g.obj g.span).foldl (fun p x => step p x.1 x.2 none) ([], s)

/-- A granule issues on a free tag (R201, R202, R206): it is charged, its object is translated once (R259), and its
data is read, from the tier or from the Skillet. -/
def State.issueGran (s : State) (n tag : Nat) (col : Bool) (g : Granule) (t : Target) : State :=
  let store := g.kind = .store ∨ g.kind = .scatter
  let s := s.touchHome (coreSlice n) t.obj.idx
  let hostRaw := g.tier = 2 ∧ t.ver.press = false
  let data :=
    if store then g.pieces.map fun p => (p.obj, (s.core n).skillet.readN p.skl p.len)
    else if hostRaw then []
    else if g.kind = .whisk then
      (List.range 32).map fun r =>
        let o := (g.pieces.getD (r * (g.pieces.length / 32)) default).obj
        (o, t.ver.content.readN o 64)
    else [(g.obj, t.ver.content.readN g.obj g.span)]
  let g := { g with data := data }
  let s := if t.ver.press ∧ !store then
      s.tngCnt 16 ((g.obj + g.span - 1) / 4096 - g.obj / 4096 + 1) else s
  let s := s.modCore n fun c =>
    let c := c.charge g
    let c := if g.stale ∨ 0 < g.staleCount then c.ldlBump 7 1 else c
    if col then
      let c := c.colBump 3 1
      if 1 < g.elements then c.colBump 6 1 else c
    else c
  let s := s.modSm n fun m =>
    { m with tags := vmod m.tags tag (fun x => { x with g := some (x.epoch, g), col := col, cancelled := false })
             lastCol := col }
  if g.tier = 2 then
    let (ts, s) := s.hostRequests n tag g
    s.modSm n fun m => { m with tags := vmod m.tags tag fun x =>
      { x with g := x.g.map fun p => (p.1, { p.2 with hostTags := ts }) } }
  else s

/-- The fault of descriptor `k` of an XFER, whose 64 bytes are `b`; the fetch of a race loses its race to a LOST object
instead (R282). -/
def State.descFails (s : State) (n : Nat) (x : XferSt) (k : Nat) (b : List Byte) (code : Nat) : State :=
  let d := descOf b
  let addr : LogAddr :=
    if code = 0x15 ∨ code = 0x16 ∨ code = 0x48 then .skillet (x.base + 64 * k) else .object d.handle d.offset
  match x.e.race with
  | some slot =>
    if code = 0x59 then
      (s.logEv { coreEv n 3 code with pc := bitsOf x.e.pc 22 4, addr := addr, acceptNo := (s.core n).cmd.getD 0 }).loseRace n slot 3
    else s.raiseFault n 3 code x.e.pc addr
  | none => s.raiseFault n 3 code x.e.pc addr

/-- Descriptors of a burst are read and checked in full, in their order, from index `k` on; the first that fails ends
it (R199, R200). -/
def State.readDescs (n : Nat) (x : XferSt) : Nat → Nat → State → State
  | 0, _, s => s
  | len + 1, k, s =>
    let b := (s.core n).skillet.readN (x.base + 64 * k) 64
    match s.descFault n b with
    | some code => s.descFails n x k b code
    | none =>
      State.readDescs n x len (k + 1) (s.modSm n fun m => m.modXfer x.id fun x =>
        { x with nextDesc := k + 1, descs := x.descs ++ [{ idx := k, d := descOf b }] })

/-- Descriptors that the Ladle has read and not finished issuing (R200). -/
def StreamSt.unissued (m : StreamSt) : Nat := sumL (m.xfers.map fun x => (x.descs.filter fun d => !d.issued).length)

/-- The Ladle reads the next burst of 16 descriptors of the oldest array that is not read whole, while it would then
hold at most 32 that it has not finished issuing (R200). When it reads is open; the model reads as early as it can. -/
def State.ladleRead (s : State) (n : Nat) : State :=
  let m := (s.core n).sm
  match m.xfers.find? fun x => decide (x.nextDesc < x.count) with
  | none => s
  | some x =>
    let len := min 16 (x.count - x.nextDesc)
    if 32 < m.unissued + len then s
    else
      let s := if x.e.race = none then s.modCore n fun c => c.ldlBump 14 1 else s
      State.readDescs n x len x.nextDesc s

/-- What an engine could issue next. -/
structure Want where
  g : Granule
  /-- Position of the descriptor, or entry of the Colander instruction, after the granule; entries skipped. -/
  next : Nat × Nat := (0, 0)
  skipped : Nat := 0
  again : Bool := false
  /-- It waits for a watch to become free (R212). -/
  watchFull : Bool := false
deriving Repr

/-- The Ladle's next granule: a refetch, or the next of the descriptor that issues (R198, R201, R210). -/
def StreamSt.ladleWant (m : StreamSt) : Option Want :=
  let re := m.xfers.flatMap fun x => x.descs.flatMap fun d => d.again.take 1
  match re with
  | g :: _ => some { g := g, again := true }
  | [] =>
    match m.xfers.find? fun x => decide (x.nextDesc < x.count) || x.descs.any fun d => !d.issued with
    | none => none
    | some x =>
      match x.descs.find? fun d => !d.issued with
      | none => none
      | some d =>
        let (ps, o, span, r, p) := d.d.granAt d.run d.pos
        let kind := if x.prog then GranKind.load else if d.d.dir then .store else if d.d.whisk != 0 then .whisk else .fetch
        some
          { g := { kind := kind, xfer := x.id, desc := d.idx, handle := d.d.handle, pieces := ps, obj := o,
                   span := span, tier := 0, slice := 16, data := [], staged := false, elements := 1 }
            next := (r, p)
            watchFull := d.d.watch && !d.watching && decide (8 ≤ m.watched) }

/-- The descriptor after its next granule has issued. -/
def StreamSt.ladleTake (m : StreamSt) (w : Want) : StreamSt :=
  m.modDesc w.g.xfer w.g.desc fun d =>
    if w.again then { d with again := d.again.drop 1, outstanding := d.outstanding + 1 }
    else
      { d with run := w.next.1, pos := w.next.2, outstanding := d.outstanding + 1, watching := d.d.watch
               issued := decide (d.d.runs ≤ w.next.1) }

/-- The Colander's next granule, of the oldest instruction that has entries left (R223, R226). An instruction whose
remaining entries are all inactive has none: `g.elements` is then 0. -/
def State.colWant (s : State) (n : Nat) : Option Want :=
  let c := s.core n
  match c.sm.cols.find? fun x => decide (x.pos < x.count) with
  | none => none
  | some x =>
    let gather := x.e.op == 1
    let size := match s.tongs.byHandle x.handle with
      | some o => o.size
      | none => 0
    let (els, i, sk) := colRun c.skillet x gather size (x.count - x.pos) x.pos [] 0
    let els := els.reverse
    let first := minL (2 ^ 64) (els.map (·.2))
    let last := maxL 0 (els.map fun e => e.2 + x.esz)
    some
      { g := { kind := if gather then .gather else .scatter, xfer := x.id, desc := 0, handle := x.handle,
               pieces := els.map fun e => { obj := e.2, skl := x.skl + e.1 * x.stride, len := x.esz },
               obj := first, span := last - first, tier := 0, slice := 16, data := [], staged := false,
               elements := els.length }
        next := (i, 0)
        skipped := sk }

/-- The Colander instruction after its next granule has issued. -/
def StreamSt.colTake (m : StreamSt) (w : Want) : StreamSt :=
  let f := fun (c : ColSt) => { c with pos := w.next.1, outstanding := c.outstanding + min 1 w.g.elements }
  { m with cols := modFirst (fun c => c.id == w.g.xfer) f m.cols }

/-- What an element of a Colander granule is refused for before it issues: a handle that may not be used so, an element
outside its object (R225), or, for a gather, one whose place is in the program region (R73). An inactive entry is never
refused (R224). -/
def State.colFault (s : State) (n : Nat) (w : Want) : Option (Nat × LogAddr) :=
  match s.engineTarget n w.g.handle (w.g.kind = .scatter) with
  | .error code => some (code, .object w.g.handle w.g.obj)
  | .ok t =>
    match w.g.pieces.find? fun p => decide (t.obj.size < p.obj + p.len) with
    | some p => some (0x1D, .object w.g.handle p.obj)
    | none =>
      if w.g.kind = .gather then
        (w.g.pieces.find? fun p => decide (p.skl < (s.core n).progEnd)).map fun p => (0x16, .skillet p.skl)
      else none

/-- The address of the Colander instruction that a granule belongs to. -/
def State.colPc (s : State) (n : Nat) (w : Want) : Nat :=
  match (s.core n).sm.cols.find? fun x => x.id == w.g.xfer with
  | some x => x.e.pc
  | none => 0

/-- The Ladle issues its next granule, waits, or faults. Answers whether it issued. -/
def State.ladleIssue (s : State) (n tag : Nat) : Bool × State :=
  match (s.core n).sm.ladleWant with
  | none => (false, s)
  | some w =>
    match s.locate n w.g with
    | .error code => (false, s.granFault n false w.g code w.g.obj)
    | .ok (g, t) =>
      if w.watchFull ∨ (s.core n).sm.passes g = false then (false, s)
      else (true, (s.modSm n fun m => m.ladleTake w).issueGran n tag false g t)

/-- The Colander issues its next granule, waits, or faults. -/
def State.colIssue (s : State) (n tag : Nat) : Bool × State :=
  match s.colWant n with
  | none => (false, s)
  | some w =>
    let skip := fun (s : State) => s.modCore n fun c => c.colBump 5 w.skipped
    if w.g.elements = 0 then (true, (skip (s.modSm n fun m => m.colTake w)).checkCol n w.g.xfer)
    else match s.colFault n w with
      | some (code, addr) => (false, s.raiseFault n 4 code (s.colPc n w) addr)
      | none => match s.locate n w.g with
        | .error code => (false, s.granFault n true w.g code w.g.obj)
        | .ok (g, t) =>
          if (s.core n).sm.passes g = false then (false, s)
          else (true, (skip (s.modSm n fun m => m.colTake w)).issueGran n tag true g t)

/-- Granules issue while tags are free and the regulators let them (R202, R206); a die in BROWN_HOLD issues none
(R418). A freed tag goes to the engine that did not receive the previous one. -/
def State.pumpStreams : Nat → Nat → State → State
  | 0, _, s => s
  | fuel + 1, n, s =>
    if (s.core n).busy = false ∨ (s.die (coreDie n)).st = .brownHold then s
    else
      let s := s.ladleRead n
      match (s.core n).sm.freeTagNo with
      | none => s
      | some tag =>
        let ladleFirst := (s.core n).sm.lastCol
        let a := if ladleFirst then s.ladleIssue n tag else s.colIssue n tag
        if a.1 then State.pumpStreams fuel n a.2
        else
          let b := if ladleFirst then a.2.colIssue n tag else a.2.ladleIssue n tag
          if b.1 then State.pumpStreams fuel n b.2 else b.2

/-! ## Beginning XFER, GATHER and SCATTER (R200, R201, R222 to R228) -/

/-- A general register read at dispatch, by the field of the body that names it (R77). -/
def Entry.reg (e : Entry) (hi lo : Nat) : Word := vget e.regs (fld e.b hi lo)

/-- A Skillet operand register is malformed (R162). -/
def operandBad (w : Word) : Bool := fld w 63 48 != 0 || fld w 23 23 != 0

/-- XFER: COUNT is 0 or above its limit (R228). -/
def xferValueBad (e : Entry) : Bool :=
  let count := bitsOf (e.reg 58 54).toNat 12 0
  count == 0 || decide (4096 < count)

/-- GATHER and SCATTER: COUNT is 0 or above its limit, or the operand register is malformed (R222, R228). -/
def colValueBad (e : Entry) : Bool :=
  let count := bitsOf (e.reg 48 44).toNat 16 0
  count == 0 || decide (65536 < count) || operandBad (e.reg 43 39)

/-- XFER, or the fetch of a race, begins: the conditions of R200 on its array. -/
def State.beginXfer (s : State) (n : Nat) (e : Entry) : State :=
  let base := if e.race.isSome then (e.reg 58 54).toNat else (e.reg 63 59).toNat
  let count := if e.race.isSome then 1 else bitsOf (e.reg 58 54).toNat 12 0
  if base % 64 ≠ 0 ∨ skilletBytes < base + 64 * count then s.raiseFault n 3 0x15 e.pc (.skillet base)
  else
    s.modSm n fun m =>
      { m with xfers := m.xfers ++ [{ id := m.nextId, e := e, base := base, count := count }], nextId := m.nextId + 1 }

/-- A range of Skillet bytes leaves the Skillet (R109). -/
def outOfSkillet (a len : Nat) : Bool := decide (skilletBytes < a + len)

/-- GATHER or SCATTER begins: its registers and Skillet ranges are checked (R222, R225, R228). -/
def State.beginCol (s : State) (n : Nat) (e : Entry) : State :=
  let esz := 2 ^ (fld e.b 33 31 + 1)
  let op := e.reg 43 39
  let addr := fld op 22 0
  let stride := if fld op 47 24 = 0 then esz else fld op 47 24
  let idx := (e.reg 53 49).toNat
  let count := bitsOf (e.reg 48 44).toNat 16 0
  let maskAddr := (e.reg 38 34).toNat
  let mask := if fld e.b 38 34 = 0 then none else some maskAddr
  let al := min esz 64
  let bad := fun code a => s.raiseFault n 4 code e.pc (.skillet a)
  if addr % al ≠ 0 ∨ stride % al ≠ 0 ∨ outOfSkillet addr ((count - 1) * stride + esz) then bad 0x15 addr
  else if idx % 4 ≠ 0 ∨ outOfSkillet idx (4 * count) then bad 0x15 idx
  else if fld e.b 38 34 ≠ 0 ∧ outOfSkillet maskAddr (ceilDiv count 8) then bad 0x15 maskAddr
  else
    let c : ColSt :=
      { id := 0, e := e, handle := bitsOf (e.reg 63 59).toNat 31 0, base := bitsOf (e.reg 58 54).toNat 39 0,
        idxAddr := idx, count := count, skl := addr, stride := stride, mask := mask, esz := esz }
    s.modSm n fun m => { m with cols := m.cols ++ [{ c with id := m.nextId }], nextId := m.nextId + 1 }

/-- The beginning of GATHER. -/
def State.beginGather (s : State) (n : Nat) (e : Entry) : State := s.beginCol n e
/-- The beginning of SCATTER. -/
def State.beginScatter (s : State) (n : Nat) (e : Entry) : State := s.beginCol n e

end Sys2Proof.Machine
end

