-- ==== Sys2Proof/Machine/Operands.lean ====
section
/-!
DEFINITION. Operand forms of the vector engine: Skillet operands, accumulator rows, scalars, masks and destinations
(R161 to R167), and the generator of its lanes (R180).
-/

namespace Sys2Proof.Machine

open Sys2Proof

/-- The fields of a VE body with the modifier bits (Tables 6.8 and 6.9). -/
structure VeF where
  rd : Nat
  ra : Nat
  rb : Nat
  rc : Nat
  rl : Nat
  rm : Nat
  fs : Nat
  fd : Nat
  rnd : Nat
  aacc : Bool
  bk : Nat
  ck : Nat
  fn : Nat
  wide : Bool
  sat : Bool
  /-- Reserved bits of the body and of MOD. -/
  rsv : Nat
deriving DecidableEq, Repr

/-- The fields of an instruction. -/
def Entry.ve (e : Entry) : VeF :=
  { rd := fld e.b 63 59, ra := fld e.b 58 54, rb := fld e.b 53 49, rc := fld e.b 48 44, rl := fld e.b 43 39
    rm := fld e.b 38 34, fs := fld e.b 33 29, fd := fld e.b 28 24, rnd := fld e.b 23 21, aacc := fld e.b 20 20 == 1
    bk := fld e.b 19 18, ck := fld e.b 17 16, fn := fld e.b 15 8, wide := bitOf e.h.mod.toNat 0
    sat := bitOf e.h.mod.toNat 1, rsv := fld e.b 7 0 + e.h.mod.toNat / 4 }

/-- Values of the registers that the fields name, as read at dispatch. -/
def Entry.g (e : Entry) (r : Nat) : Nat := (vget e.regs r).toNat

/-- LEN (R161). -/
def Entry.len (e : Entry) : Nat := bitsOf (e.g e.ve.rl) 31 0

/-- G of REDUCE and SLICE (Table 6.9). -/
def Entry.grp (e : Entry) : Nat := bitsOf (e.g e.ve.rl) 63 32

/-- A Skillet operand: address, distance of its elements in bytes, bits per element (R162). -/
structure Opd where
  addr : Nat
  stride : Nat
  bits : Nat
deriving DecidableEq, Repr

/-- Bytes that `n` elements of an operand span. -/
def Opd.span (o : Opd) (n : Nat) : Nat :=
  if n = 0 then 0 else if o.bits = 4 then ceilDiv n 2 else (n - 1) * o.stride + o.bits / 8

/-- The fault of an instruction that is refused, with the address that its record names (R93). -/
structure VeErr where
  code : Nat
  addr : LogAddr := .none
  /-- The element of a lane fault. -/
  pos : Nat := 0
  /-- Out-of-domain arguments counted before it (R187). -/
  ood : Nat := 0
deriving DecidableEq, Repr

/-- Fault 0x15 at a Skillet address. -/
def VeErr.at (a : Nat) : VeErr := { code := 0x15, addr := .skillet a }

/-- A Skillet operand register has a reserved bit, or a stride where the format is packed only (R162, R193). -/
def opdBad (w fmt : Nat) : Bool :=
  bitsOf w 63 48 != 0 || bitOf w 23 || (bitsOf w 47 24 != 0 && (fmtBits fmt == 4 || isMx fmt || fmt == 0x17))

/-- A Skillet operand register for `n` elements of a format, or fault 0x15 (R109, R162). -/
def opdOf (w : Nat) (fmt n : Nat) : Except VeErr Opd :=
  let sz := fmtBits fmt / 8
  let st := bitsOf w 47 24
  let o : Opd := { addr := bitsOf w 22 0, stride := if st = 0 then sz else st, bits := fmtBits fmt }
  if sz ≠ 0 ∧ (o.addr % sz ≠ 0 ∨ o.stride % sz ≠ 0) then .error (.at o.addr)
  else if outOfSkillet o.addr (o.span n) then .error (.at o.addr)
  else .ok o

/-- A plain byte range of the Skillet at a register's address, or fault 0x15. -/
def rangeOf (a align len : Nat) : Except VeErr Nat :=
  if a % align ≠ 0 ∨ outOfSkillet a len then .error (.at a) else .ok a

/-- The code of element `i` of an operand. -/
def Opd.get (o : Opd) (m : Mem) (i : Nat) : Nat :=
  if o.bits = 4 then (m.read (o.addr + i / 2)).toNat / 16 ^ (i % 2) % 16 else m.readLE (o.addr + i * o.stride) (o.bits / 8)

/-- ACC row `r`, column `c`, as 32 bits (R117). -/
def accWord (m : Mem) (r c : Nat) : Nat := m.readLE (128 * r + 4 * c) 4

/-- Wide row `w`, column `c`, as a signed 64-bit integer (R117). -/
def accWide (m : Mem) (w c : Nat) : Int := sextN 64 (accWord m (2 * w) c + 2 ^ 32 * accWord m (2 * w + 1) c)

/-- Where source A comes from. -/
inductive SrcA where
  | skillet (o : Opd)
  | acc (row : Nat) (wide : Bool)
deriving DecidableEq, Repr

/-- The first ACC row of source A (R163). -/
def Entry.accRow (e : Entry) : Nat := bitsOf (e.g e.ve.ra) 10 0

/-- Source A of LEN elements is illegal: an ACC run that is no whole number of rows or leaves the ACC, or a malformed
Skillet operand (R119, R162, R163, R193). -/
def Entry.srcABad (e : Entry) : Bool :=
  let f := e.ve
  if f.aacc then e.len % 32 != 0 || decide ((if f.wide then 1024 else 2048) < e.accRow + e.len / 32)
  else opdBad (e.g f.ra) f.fs

/-- Source A of an instruction (R163), or its fault. `n` is the number of elements it reads. -/
def Entry.srcA (e : Entry) (n : Nat) : Except VeErr SrcA :=
  let f := e.ve
  if f.aacc then .ok (.acc e.accRow f.wide)
  else (opdOf (e.g f.ra) f.fs n).map .skillet

/-- The exact value of element `i` of source A; an ACC source is binary32, INT32 or INT64 by the class of FMT_S. -/
def SrcA.value (a : SrcA) (fs : Nat) (skl acc : Mem) (i : Nat) : FVal :=
  match a with
  | .skillet o => elemValue fs (o.get skl i)
  | .acc row true => .ofInt (accWide acc (row + i / 32) (i % 32))
  | .acc row false =>
    let x := accWord acc (row + i / 32) (i % 32)
    if isInt fs then .ofInt (sextN 32 x) else binary32.decode x

/-- Source B or C by its kind field (R163): none, a Skillet operand, or a scalar. A scalar of a 4-bit format, which R163
does not list, is the low 4 bits (DEDUCED, assumption 42). -/
inductive SrcB where
  | none
  | skillet (o : Opd)
  | scalar (x : Nat)
deriving DecidableEq, Repr

/-- Source B or C of an instruction. -/
def Entry.srcB (e : Entry) (kind reg n : Nat) : Except VeErr SrcB :=
  match kind with
  | 1 => (opdOf (e.g reg) e.ve.fs n).map .skillet
  | 2 => .ok (.scalar (e.g reg % 2 ^ fmtBits e.ve.fs))
  | _ => .ok .none

/-- The code of element `i` of source B or C. -/
def SrcB.code (b : SrcB) (skl : Mem) (i : Nat) : Nat :=
  match b with
  | .none => 0
  | .skillet o => o.get skl i
  | .scalar x => x

/-- The mask operand (R165): none when RM is 0. -/
def Entry.mask (e : Entry) (n : Nat) : Except VeErr (Option Nat) :=
  if e.ve.rm = 0 then .ok none
  else
    let a := e.g e.ve.rm
    if outOfSkillet a (ceilDiv n 8) then .error (.at a) else .ok (some a)

/-- Part of a byte, or whole bytes, to be written: bit address, bits and value. -/
structure Wr where
  bit : Nat
  w : Nat
  v : Nat
deriving DecidableEq, Repr

/-- One write performed. -/
def Mem.put (m : Mem) (x : Wr) : Mem :=
  let a := x.bit / 8
  if x.w = 4 then
    let old := (m.read a).toNat
    let sh := 16 ^ (x.bit % 8 / 4)
    m.write a (toB (old - old / sh % 16 * sh + x.v % 16 * sh))
  else m.writeLE a (x.w / 8) x.v

/-- The place of element `i` of an operand. -/
def Opd.place (o : Opd) (i v : Nat) : Wr :=
  if o.bits = 4 then { bit := 8 * o.addr + 4 * i, w := 4, v := v } else { bit := 8 * (o.addr + i * o.stride), w := o.bits, v := v }

/-- A written element meets bytes of a source of `n` elements. -/
def Opd.meets (o : Opd) (n : Nat) (x : Wr) : Bool :=
  let a := x.bit / 8
  let len := max 1 (x.w / 8)
  if o.bits = 4 then rangesMeet a len o.addr (ceilDiv n 2)
  else
    let j := min ((a + len - 1 - o.addr) / o.stride) (n - 1)
    decide (o.addr < a + len) && decide (a < o.addr + j * o.stride + o.bits / 8)

/-- The sources of an instruction that are Skillet operands, with the elements read of each. -/
abbrev Srcs := List (Opd × Nat)

/-- A write whose element overlaps a source without being that source in place has an unspecified value (R167): the
free value of occasion `k`. -/
def fixOverlap (srcs : Srcs) (dst : Option Opd) (k : Nat) (x : Wr) : Wr :=
  if srcs.any fun s => (dst != some s.1) && s.1.meets s.2 x then
    { x with v := ofLE ((List.range (max 1 (x.w / 8))).map fun i => Config.undefByte k (x.bit / 8 + i)) }
  else x

/-! ## The generator of a lane (R180) -/

/-- One draw: the state after it. -/
def xorshift (x : Nat) : Nat :=
  let a := x ^^^ (x * 2 ^ 13 % 2 ^ 32)
  let b := a ^^^ (a / 2 ^ 17)
  b ^^^ (b * 2 ^ 5 % 2 ^ 32)

/-- Generator state of lane `l` of core `n` for a seed (R180). -/
def laneInit (seed n l : Nat) : Nat :=
  let v := (seed + (256 * n + l + 1) * 0x9E3779B97F4A7C15) % 2 ^ 64
  let f := (v / 2 ^ 32) ^^^ (v % 2 ^ 32)
  if f = 0 then 1 else f

/-- The draws of element positions `i` up to `i + n − 1`, in ascending order, and the lanes after them. -/
def drawLanes : Nat → Nat → Vector Nat 256 → List Nat × Vector Nat 256
  | 0, _, ls => ([], ls)
  | n + 1, i, ls =>
    let x := xorshift (vget ls (i % 256))
    let (rs, ls) := drawLanes n (i + 1) (vset ls (i % 256) x)
    (x / 2 ^ 16 :: rs, ls)

end Sys2Proof.Machine
end

