-- ==== Sys2Proof/Machine/Vector.lean ====
section
/-!
DEFINITION. The vector engine: encoding checks, arithmetic, conversions, reductions, function tables, slices and
recombination (R161 to R193). An instruction's work is done in the step in which it begins.
-/

namespace Sys2Proof.Machine

open Sys2Proof

/-- What a VE instruction does: its writes, its counts, and what its completion sets. -/
structure VeRes where
  wr : List Wr := []
  elems : Nat := 0
  clip : Nat := 0
  inf : Nat := 0
  nan : Nat := 0
  ood : Nat := 0
  supp : Nat := 0
  ffBlocks : Nat := 0
  tok : Option (Nat × Nat) := none
  /-- Outputs whose rounding draws no stated lane (REDUCE): free values were used. -/
  lanes : Option (Vector Nat 256) := none
deriving Repr

/-! ## Encoding checks (R76, R169, R182, R192, R193) -/

/-- Formats that the arithmetic operations take (R169). -/
def arithFmt (f : VeF) : Bool :=
  [0x11, 0x10, 0x00, 0x01, 0x13, 0x14, 0x09, 0x15].contains f.fs || (f.fs == 0x16 && f.aacc && f.wide)

/-- The wide mode of source A needs an ACC source of integer class (R163, R169). -/
def wideBad (f : VeF) : Bool := f.wide && !(f.aacc && isInt f.fs)

/-- An ACC source is of the class of FMT_S: binary32, or INT32 or INT64; MX formats have no ACC source (R169). -/
def accBad (f : VeF) : Bool := f.aacc && isMx f.fs

/-- Source A has exactly the type of FMT_S, so that its bits can be copied. -/
def accExact (f : VeF) : Bool := !f.aacc || f.fs == (if f.wide then 0x16 else if isInt f.fs then 0x13 else 0x10)

/-- Source fields: `two` for an operation with a source B, `fma` for one with a source C. -/
def srcBad (two fma : Bool) (f : VeF) : Bool :=
  f.bk == 3 || f.ck == 3 || (two != (f.bk != 0)) || (fma != (f.ck != 0))

/-- The destination scales in RC: only an MX destination has them. -/
def scaleBad (f : VeF) : Bool := f.rc != 0 && !isMx f.fd

/-- Fields that every VE instruction checks. -/
def veCommonBad (f : VeF) : Bool := f.rsv != 0 || decide (4 < f.rnd) || wideBad f || accBad f

/-- ADD, SUB, MUL, MIN, MAX. -/
def arith2Bad (f : VeF) : Bool :=
  veCommonBad f || !arithFmt f || !fmtOk f.fd || srcBad true false f || scaleBad f || f.fn != 0
/-- FMA. -/
def fmaBad (f : VeF) : Bool :=
  veCommonBad f || !arithFmt f || !fmtOk f.fd || srcBad true true f || isMx f.fd || f.fn != 0
/-- UNARY. -/
def unaryBad (f : VeF) : Bool :=
  veCommonBad f || !arithFmt f || !fmtOk f.fd || srcBad false false f || f.rb != 0 || scaleBad f || decide (2 < f.fn)
/-- BIT. -/
def bitBad (f : VeF) : Bool :=
  veCommonBad f || !([0x13, 0x14, 0x09, 0x0A, 0x15, 0x16] : List _).contains f.fs || f.fd != f.fs || srcBad true false f
    || f.rc != 0 || f.rnd != 0 || f.sat || decide (6 < f.fn)
/-- CMP. -/
def cmpBad (f : VeF) : Bool :=
  veCommonBad f || !arithFmt f || f.fd != 0 || srcBad true false f || f.rc != 0 || f.rnd != 0 || f.sat || decide (6 < f.fn)
/-- CVT. -/
def cvtBad (f : VeF) : Bool :=
  veCommonBad f || !fmtOk f.fs || !fmtOk f.fd || f.bk != 0 || f.ck != 0 || (f.rb != 0 && !isMx f.fs) || scaleBad f || f.fn != 0
/-- REDUCE. -/
def reduceBad (f : VeF) : Bool :=
  veCommonBad f || !arithFmt f || !fmtOk f.fd || isMx f.fd || srcBad false false f || f.rb != 0 || f.rc != 0
    || decide (15 < f.fn) || decide (5 < f.fn % 8) || (f.fn % 8 == 5 && f.fd != 0x14)
/-- FUNC. -/
def funcBad (f : VeF) : Bool :=
  veCommonBad f || !([0x10, 0x00, 0x01] : List _).contains f.fs || !fmtOk f.fd || srcBad false false f || f.rb != 0 || scaleBad f
    || decide (7 < f.fn)
/-- FTLOAD. -/
def ftloadBad (f : VeF) : Bool :=
  f.rsv != 0 || f.rd != 0 || f.rb != 0 || f.rc != 0 || f.rl != 0 || f.rm != 0 || f.fs != 0 || f.fd != 0 || f.rnd != 0
    || f.aacc || f.bk != 0 || f.ck != 0 || f.wide || f.sat || decide (7 < f.fn)
/-- COMPRESS and EXPAND. -/
def packBad (f : VeF) : Bool :=
  veCommonBad f || !fmtOk f.fs || f.fd != f.fs || isMx f.fs || fmtBits f.fs == 4 || srcBad false false f
    || f.rb != 0 || f.rc != 0 || f.rnd != 0 || f.sat || decide (63 < f.fn)
/-- SLICE: the split, and the join with FN[5] = 1. -/
def sliceBad (f : VeF) : Bool :=
  let s := f.fn % 16
  veCommonBad f || f.bk != 0 || f.ck != 0 || s == 0 || decide (8 < s) || decide (63 < f.fn)
    || (if bitOf f.fn 5 then f.fs != 0x17 || !(f.fd == 0x10 || f.fd == 0x11) || f.aacc
        else !(f.fs == 0x10 || f.fs == 0x11) || f.fd != 0x17 || f.rnd != 0 || f.sat)
/-- COMBINE. Its source is the ACC, with AACC 0 or 1; FMT_S is 0 or of integer class (DEDUCED, assumption 42). -/
def combineBad (f : VeF) : Bool :=
  f.rsv != 0 || decide (4 < f.rnd) || !f.wide || (f.fs != 0 && !isInt f.fs) || !(f.fd == 0x10 || f.fd == 0x11) || f.bk != 0
    || f.ck != 0 || f.rc != 0 || f.fn != 0
/-- VSEED. -/
def vseedBad (f : VeF) : Bool := ftloadBad f || f.fn != 0

/-! ## Checks on register values, made at the head of the queue for an instruction that is not null (R76, R78, R193) -/

/-- LEN lies outside its limits. -/
def lenBad (n lim : Nat) : Bool := n == 0 || decide (lim < n)

/-- gRL of an operation that takes no G: LEN outside its limits, or bits above it (Table 6.9, R193). -/
def Entry.lenBad (e : Entry) (lim : Nat) : Bool := Machine.lenBad e.len lim || e.grp != 0

/-- Powers of two up to 256. -/
def pow2to256 (g : Nat) : Bool := [1, 2, 4, 8, 16, 32, 64, 128, 256].contains g

/-- G of REDUCE is outside its limits (R174). -/
def Entry.groupBad (e : Entry) : Bool :=
  let g := e.grp
  !(pow2to256 g || (!bitOf e.ve.fn 3 && g != 0 && g % 256 == 0)) || e.len % g != 0

/-- LEN, G, an operand register or an ACC run of a VE instruction is illegal. What the record of COMBINE holds is data of
the Skillet, and is checked as it begins (DEDUCED, assumption 42). -/
def Entry.veValueBad (e : Entry) : Bool :=
  let f := e.ve
  let n := e.len
  let dst := opdBad (e.g f.rd) f.fd || (isMx f.fd && n % 32 != 0)
  match e.op with
  | 0x09 => e.lenBad 1048576 || e.srcABad || (f.bk == 1 && opdBad (e.g f.rb) f.fs)
  | 0x10 => Machine.lenBad n 1048576 || e.groupBad || e.srcABad || dst
  | 0x21 | 0x3F => false
  | 0x30 | 0x31 => e.lenBad 65535 || e.srcABad || dst
  | 0x38 =>
    Machine.lenBad n 1048576 || e.grp == 0
      || (if bitOf f.fn 5 then opdBad (e.g f.ra) 0x17 || dst else e.srcABad || opdBad (e.g f.rd) 0x17)
  | 0x39 =>
    e.lenBad 1048576 || n % 32 != 0 || decide (1024 < e.accRow + n / 32) || opdBad (e.g f.rd) f.fd
      || bitsOf (e.g f.rd) 47 24 != 0
  | _ =>
    e.lenBad 1048576 || e.srcABad || (f.bk == 1 && opdBad (e.g f.rb) f.fs) || (f.ck == 1 && opdBad (e.g f.rc) f.fs) || dst

/-! ## Results of an instruction -/

/-- The draws of an instruction of `n` element positions (R180): none without stochastic rounding. -/
def State.veDraws (s : State) (c : Nat) (e : Entry) (n : Nat) : List Nat × Option (Vector Nat 256) :=
  if e.ve.rnd = 4 then
    let (l, ls) := drawLanes n 0 (s.core c).ve.lanes
    (l, some ls)
  else ([], none)

/-- A result: a value, or a lane fault. `ovf`: an infinity among its values was rounded to from finite operands before
the conversion (VE_CNT_6). -/
structure Elem where
  i : Nat
  active : Bool
  v : Option FVal
  ovf : Bool := false
deriving Repr

/-- A result counts in VE_CNT_6: it was rounded to infinity from finite operands (R171). -/
def Elem.toInf (x : Elem) (c : Conv) : Bool :=
  c.toInf || (x.ovf && x.v.any (fun v => v.abs == .inf false) && !c.isNan && !c.clip)

/-- Elements converted one by one to a format that has no block scale, and placed; an active lane fault gives its code
(R175, R181). -/
def placePlain (f : VeF) (code : Nat) (dst : Opd) (draws : List Nat) : List Elem → Except VeErr VeRes
  | [] => .ok {}
  | x :: xs =>
    let c := x.v.bind fun v => convertTo f.fd f.rnd (draws.getD x.i 0) f.sat v
    let fc : VeErr := { code := if x.v.isNone then code else 0x43, pos := x.i }
    match placePlain f code dst draws xs with
    | .error k => if x.active ∧ c.isNone then .error fc else .error k
    | .ok r =>
      match c, x.active with
      | none, true => .error fc
      | none, false => .ok { r with supp := r.supp + 1 }
      | some _, false => .ok r
      | some c, true =>
        .ok { r with
          wr := dst.place x.i c.code :: r.wr, elems := r.elems + 1, clip := r.clip + b2n c.clip
          inf := r.inf + b2n (x.toInf c), nan := r.nan + b2n c.isNan }

/-- One block of 32 elements converted to an MX format (R177). -/
def placeBlock (f : VeF) (dst : Opd) (scales : Nat) (draws : List Nat) (xs : List Elem) : VeRes :=
  let act := xs.filter (·.active)
  let vals := act.map fun x => (x.i, x.v.getD .nan)
  match act with
  | [] => {}
  | a :: _ =>
    let sc := fun b => { bit := 8 * (scales + a.i / 32), w := 8, v := b : Wr }
    if vals.any fun p => p.2.special then
      { wr := sc 255 :: vals.map (fun p => dst.place p.1 0), elems := vals.length, ffBlocks := 1 }
    else
      let amax := vals.foldl (fun m p => if m.lt p.2.abs then p.2.abs else m) FVal.zero
      let x : Int := if amax.isZero then 0 else max (-127) (min 127 (amax.ilog2 - mxEmax f.fd))
      let cs := vals.map fun p => (p.1, (convertTo f.fd f.rnd (draws.getD p.1 0) f.sat (p.2.scale (-x))).getD { code := 0 })
      { wr := sc (if amax.isZero then 0 else (x + 127).toNat) :: cs.map (fun p => dst.place p.1 p.2.code)
        elems := cs.length, clip := sumL (cs.map fun p => b2n p.2.clip) }

/-- Elements converted to an MX format, block by block. -/
def placeMx (f : VeF) (dst : Opd) (scales : Nat) (draws : List Nat) : Nat → List Elem → VeRes
  | 0, _ => {}
  | n + 1, xs =>
    let r := placeBlock f dst scales draws (xs.take 32)
    let t := placeMx f dst scales draws n (xs.drop 32)
    { wr := r.wr ++ t.wr, elems := r.elems + t.elems, clip := r.clip + t.clip, ffBlocks := r.ffBlocks + t.ffBlocks }

/-- The elements of an instruction converted to FMT_D and placed at gRD, with the scales of an MX destination at gRC
(R170, R175 to R178). `code` is the code of a lane fault among them. -/
def Entry.place (e : Entry) (code n : Nat) (draws : List Nat) (xs : List Elem) : Except VeErr (Opd × VeRes) :=
  let f := e.ve
  match opdOf (e.g f.rd) f.fd n with
  | .error k => .error k
  | .ok dst =>
    if isMx f.fd then
      if outOfSkillet (e.g f.rc) (n / 32) then .error (.at (e.g f.rc))
      else match xs.find? fun x => x.active && x.v.isNone with
        | some x => .error { code := code, pos := x.i }
        | none =>
          let r := placeMx f dst (e.g f.rc) draws (n / 32) xs
          .ok (dst, { r with supp := (xs.filter fun x => !x.active && x.v.isNone).length })
    else (placePlain f code dst draws xs).map fun r => (dst, r)

/-- Skillet operands among the sources. -/
def srcOpds (n : Nat) (a : SrcA) (bs : List SrcB) : Srcs :=
  (match a with
    | .skillet o => [(o, n)]
    | _ => []) ++ bs.filterMap fun b => match b with
    | .skillet o => some (o, n)
    | _ => none

/-- The exact value of an operation on a class of formats: an integer zero has no sign. -/
def VeF.exact (f : VeF) (v : FVal) : FVal := if isInt f.fs ∧ v.isZero then FVal.zero else v

/-- An elementwise operation: `op` gives the exact value from the values of A, B and C (R170). -/
def State.elementwise (s : State) (c : Nat) (e : Entry) (op : FVal → FVal → FVal → FVal) : Except VeErr (Srcs × Opd × VeRes) :=
  let f := e.ve
  let n := e.len
  let core := s.core c
  match e.srcA n, e.srcB f.bk f.rb n, e.srcB f.ck f.rc n, e.mask n with
  | .ok a, .ok b, .ok k, .ok m =>
    let (draws, ls) := s.veDraws c e n
    let val := fun (x : SrcB) i => elemValue f.fs (x.code core.skillet i)
    let xs := (List.range n).map fun i =>
      { i := i, active := maskBit core.skillet m i,
        v := some (f.exact (op (a.value f.fs core.skillet core.me.acc i) (val b i) (val k i))) }
    (e.place 0x43 n draws xs).map fun r => (srcOpds n a [b, k], r.1, { r.2 with lanes := ls })
  | .error k, _, _, _ => .error k
  | _, .error k, _, _ => .error k
  | _, _, .error k, _ => .error k
  | _, _, _, .error k => .error k

/-- MX scale of element `i`: the scale byte of its block. -/
def mxScale (skl : Mem) (scales i : Nat) : Nat := (skl.read (scales + i / 32)).toNat

/-- CVT (R175 to R178). -/
def State.convertOp (s : State) (c : Nat) (e : Entry) : Except VeErr (Srcs × Opd × VeRes) :=
  let f := e.ve
  let n := e.len
  if isMx f.fs then
    if outOfSkillet (e.g f.rb) (ceilDiv n 32) then .error (.at (e.g f.rb))
    else
      match opdOf (e.g f.ra) f.fs n, e.mask n with
      | .ok a, .ok m =>
        let skl := (s.core c).skillet
        let (draws, ls) := s.veDraws c e n
        let xs := (List.range n).map fun i =>
          { i := i, active := maskBit skl m i, v := some (mxValue f.fs (a.get skl i) (mxScale skl (e.g f.rb) i)) }
        (e.place 0x43 n draws xs).map fun r => ([(a, n)], r.1, { r.2 with lanes := ls })
      | .error k, _ => .error k
      | _, .error k => .error k
  else s.elementwise c e fun a _ _ => a

/-- The bits of element `i` of source A, all those of an ACC element. -/
def SrcA.bits (a : SrcA) (skl acc : Mem) (i : Nat) : Nat :=
  match a with
  | .skillet o => o.get skl i
  | .acc row true => (accWide acc (row + i / 32) (i % 32) % 2 ^ 64).toNat
  | .acc row false => accWord acc (row + i / 32) (i % 32)

/-- A BIT operation on codes of `w` bits (R172). -/
def bitFn (fn w a b : Nat) : Nat :=
  let sh := b % w
  match fn with
  | 0 => a &&& b
  | 1 => a ||| b
  | 2 => a ^^^ b
  | 3 => a &&& (2 ^ w - 1 - b)
  | 4 => a * 2 ^ sh % 2 ^ w
  | 5 => a / 2 ^ sh
  | _ => (sextN w a / 2 ^ sh % 2 ^ w).toNat

/-- BIT (R172). Of an ACC element wider than FMT_S it takes the low bits (DEDUCED, assumption 42). -/
def State.bitRun (s : State) (c : Nat) (e : Entry) : Except VeErr (Srcs × Opd × VeRes) :=
  let f := e.ve
  let n := e.len
  let w := fmtBits f.fs
  let core := s.core c
  match e.srcA n, e.srcB f.bk f.rb n, e.mask n, opdOf (e.g f.rd) f.fd n with
  | .ok a, .ok b, .ok m, .ok dst =>
    let act := (List.range n).filter fun i => maskBit core.skillet m i
    let wr := act.map fun i =>
      dst.place i (bitFn f.fn w (a.bits core.skillet core.me.acc i % 2 ^ w) (b.code core.skillet i))
    .ok (srcOpds n a [b], dst, { wr := wr, elems := act.length })
  | .error k, _, _, _ => .error k
  | _, .error k, _, _ => .error k
  | _, _, .error k, _ => .error k
  | _, _, _, .error k => .error k

/-- A comparison of CMP by FN (R173). -/
def cmpFn (fn : Nat) (a b : FVal) : Bool :=
  let un := a == .nan || b == .nan
  match fn with
  | 0 => a.eqv b
  | 1 => !a.eqv b
  | 2 => a.lt b
  | 3 => !un && !b.lt a
  | 4 => b.lt a
  | 5 => !un && !a.lt b
  | _ => un

/-- CMP writes a mask array, inactive positions and the rest of the last byte included (R173). -/
def State.cmpRun (s : State) (c : Nat) (e : Entry) : Except VeErr (Srcs × Option Opd × VeRes) :=
  let f := e.ve
  let n := e.len
  let core := s.core c
  let d := e.g f.rd
  if outOfSkillet d (ceilDiv n 8) then .error (.at d)
  else
    match e.srcA n, e.srcB f.bk f.rb n, e.mask n with
    | .ok a, .ok b, .ok m =>
      let bit := fun i => decide (i < n) && maskBit core.skillet m i &&
        cmpFn f.fn (a.value f.fs core.skillet core.me.acc i) (elemValue f.fs (b.code core.skillet i))
      let wr := (List.range (ceilDiv n 8)).map fun k =>
        { bit := 8 * (d + k), w := 8, v := sumL ((List.range 8).map fun j => if bit (8 * k + j) then 2 ^ j else 0) : Wr }
      .ok (srcOpds n a [b], none, { wr := wr, elems := n })
    | .error k, _, _ => .error k
    | _, .error k, _ => .error k
    | _, _, .error k => .error k

/-! ## REDUCE (R174) -/

/-- The compute format of a floating source (R169). -/
def computeFmt (f : VeF) : FFmt :=
  if f.fs = 0x11 then binary64 else if f.aacc then binary32 else (floatFmt f.fs).getD binary32

/-- Rounds a step of a reduction; integer steps are exact. -/
def stepRound (f : VeF) (v : FVal) : FVal := if isInt f.fs then v else (computeFmt f).round v

/-- The identity of an inactive element. -/
def redIdentity (op : Nat) : FVal :=
  match op with
  | 1 => .inf true
  | 2 => .inf false
  | _ => FVal.zero

/-- One element combined into a lane's partial. -/
def redStep (f : VeF) (op : Nat) (p x : FVal) : FVal :=
  match op with
  | 0 => stepRound f (p.add 0 x)
  | 1 => p.max x
  | 2 => p.min x
  | 3 => stepRound f ((x.mul x).add 0 p)
  | _ => p.max x.abs

/-- Two partials combined in the tree. -/
def redJoin (f : VeF) (op : Nat) (a b : FVal) : FVal :=
  match op with
  | 0 | 3 => stepRound f (a.add 0 b)
  | 2 => a.min b
  | _ => a.max b

/-- A lane's partial: its elements in ascending strip order. -/
def lanePartial (f : VeF) (op : Nat) : List FVal → FVal
  | [] => redIdentity op
  | x :: xs =>
    xs.foldl (redStep f op)
      (match op with
        | 3 => stepRound f (x.mul x)
        | 4 => x.abs
        | _ => x)

/-- One level of the pairwise tree, in ascending lane order. -/
def pairUp (j : FVal → FVal → FVal) : List FVal → List FVal
  | a :: b :: xs => j a b :: pairUp j xs
  | xs => xs

/-- The pairwise tree over the partials of a group. -/
def redTree (j : FVal → FVal → FVal) : Nat → List FVal → FVal
  | 0, xs => xs.headD .nan
  | n + 1, xs => match xs with
    | [x] => x
    | xs => redTree j n (pairUp j xs)

/-- Lanes of the group of output `k`: (lane, elements of it in strip order) (R174). -/
def redGroup (across : Bool) (g len k : Nat) : List (List Nat) :=
  if across then
    (List.range (256 / g)).map fun l => (List.range (ceilDiv len 256)).map fun j => 256 * j + k + l * g
  else if g ≤ 256 then (List.range g).map fun l => [k * g + l]
  else (List.range 256).map fun l => (List.range (g / 256)).map fun j => k * g + 256 * j + l

/-- The smallest e with |x| < 2^e over the active elements (EXP, R174). -/
def redExp (xs : List FVal) : Int :=
  if xs.any (·.special) then 32767
  else maxL 0 (xs.map fun v => if v.isZero then 0 else (v.ilog2 + 1 + 1074).toNat) - 1074

/-- REDUCE (R174). A stochastic rounding of an output uses a free draw: the manual does not say which lane's. -/
def State.reduceRun (s : State) (c : Nat) (e : Entry) : Except VeErr (Srcs × Opd × VeRes) :=
  let f := e.ve
  let n := e.len
  let g := e.grp
  let op := f.fn % 8
  let across := bitOf f.fn 3
  let core := s.core c
  let outs := if across then g else n / g
  match e.srcA n, e.mask n, opdOf (e.g f.rd) f.fd outs with
  | .ok a, .ok m, .ok dst =>
    let act := fun i => decide (i < n) && maskBit core.skillet m i
    let val := fun i => a.value f.fs core.skillet core.me.acc i
    let draws := (List.range outs).map fun k => Config.pick (s.freeCtr + k) % 65536
    let ls := (s.veDraws c e n).2
    let xs := (List.range outs).map fun k =>
      let grp := redGroup across g n k
      let used := (grp.flatMap fun l => l.filter act).map val
      let v := if op = 5 then FVal.ofInt (redExp used)
        else redTree (redJoin f op) 9 (grp.map fun l => lanePartial f op (l.map fun i => if act i then val i else redIdentity op))
      { i := k, active := true, v := some v, ovf := (op == 0 || op == 3) && used.all fun v => !v.special }
    (placePlain f 0x43 dst draws xs).map fun r => (srcOpds n a [], dst, { r with lanes := ls })
  | .error k, _, _ => .error k
  | _, .error k, _ => .error k
  | _, _, .error k => .error k

/-! ## COMPRESS and EXPAND (R182, R183) -/

/-- The elements `ps` of source A, each with the index of its place: bits are copied; an ACC element of another type than
FMT_S is converted to FMT_D as any result, nearest-even (R169, R170; DEDUCED, assumption 42). -/
def Entry.packed (e : Entry) (core : CoreSt) (a : SrcA) (dst : Opd) (ps : List (Nat × Nat)) : Except VeErr VeRes :=
  if accExact e.ve then
    .ok { wr := ps.map fun p => dst.place p.2 (a.bits core.skillet core.me.acc p.1), elems := ps.length }
  else
    placePlain e.ve 0x43 dst [] (ps.map fun p =>
      { i := p.2, active := true, v := some (a.value e.ve.fs core.skillet core.me.acc p.1) })

/-- COMPRESS. -/
def State.compressRun (s : State) (c : Nat) (e : Entry) : Except VeErr (Srcs × Opd × VeRes) :=
  let f := e.ve
  let n := e.len
  let core := s.core c
  match e.srcA n, e.mask n with
  | .ok a, .ok m =>
    let act := (List.range n).filter fun i => maskBit core.skillet m i
    match opdOf (e.g f.rd) f.fd act.length with
    | .error k => .error k
    | .ok dst =>
      (e.packed core a dst act.zipIdx).map fun r => (srcOpds n a [], dst, { r with tok := some (f.fn, act.length) })
  | .error k, _ => .error k
  | _, .error k => .error k

/-- EXPAND. -/
def State.expandRun (s : State) (c : Nat) (e : Entry) : Except VeErr (Srcs × Opd × VeRes) :=
  let f := e.ve
  let n := e.len
  let core := s.core c
  match e.mask n, opdOf (e.g f.rd) f.fd n with
  | .ok m, .ok dst =>
    let act := (List.range n).filter fun i => maskBit core.skillet m i
    match e.srcA act.length with
    | .error k => .error k
    | .ok a =>
      (e.packed core a dst (act.zipIdx.map Prod.swap)).map fun r =>
        (srcOpds act.length a [], dst, { r with tok := some (f.fn, act.length) })
  | .error k, _ => .error k
  | _, .error k => .error k

/-! ## Function tables (R184 to R187) -/

/-- Header fields of a loaded image (Table 6.4). -/
def ftNseg (b : List Byte) : Nat := leAt b 4 1 + 1
def ftDeg (b : List Byte) : Nat := leAt b 5 1
def ftRr (b : List Byte) : Nat := leAt b 6 1
def ftOod (b : List Byte) : Nat := leAt b 7 1
def ftLo (b : List Byte) : FVal := binary32.decode (leAt b 8 4)
def ftHi (b : List Byte) : FVal := binary32.decode (leAt b 12 4)
def ftC (b : List Byte) : FVal := binary32.decode (leAt b 16 4)

/-- An image header has an invalid field (R184). -/
def ftBad (b : List Byte) : Bool :=
  decide (3 < ftDeg b) || decide (8 < ftRr b) || decide (2 < ftOod b) || (ftLo b).special || (ftHi b).special
    || !(ftLo b).lt (ftHi b) || (ftC b).special || (ftC b).isZero || ((b.take 64).drop 20).any (· != 0)

/-- Segment width W (R185). -/
def ftWidth (b : List Byte) : FVal := binary32.divNat ((ftHi b).add 0 (ftLo b).neg) (ftNseg b)

/-- Segment start s_i (R185). -/
def ftStart (b : List Byte) (i : Nat) : FVal :=
  binary32.round ((ftLo b).add 0 ((FVal.ofInt i).mul (ftWidth b)))

/-- The segments' starts. -/
def ftStarts (b : List Byte) : List FVal := (List.range (ftNseg b)).map (ftStart b)

/-- Steps 4 and 5 of R186 at a reduced argument. -/
def ftPoly (b : List Byte) (starts : List FVal) (y : FVal) : FVal :=
  let i := ((List.range starts.length).filter fun j => !y.lt (starts.getD j .nan)).foldl max 0
  let t := binary32.round (y.add 0 (starts.getD i .nan).neg)
  let co := fun k => binary32.decode (leAt b (64 + 16 * i + 4 * k) 4)
  let fma := fun p k => binary32.round ((p |> FVal.mul t).add 0 (co k))
  match ftDeg b with
  | 0 => co 0
  | 1 => fma (co 1) 0
  | 2 => fma (fma (co 2) 1) 0
  | _ => fma (fma (fma (co 3) 2) 1) 0

/-- What the reduction of Table 6.5 gives: a result of its own, an argument out of domain (with the value that clamp
takes as too low or too high, or NaN for the three negative cases), an unstated result, or a reduced argument with the
sign and the power of two that the result column uses. -/
inductive Reduced where
  | done (v : FVal)
  | outside (high : Bool)
  | negArg
  | unstated
  | at_ (y : FVal) (neg : Bool) (n : Int)
deriving Repr

/-- The reduction of x′ (Table 6.5). -/
def ftReduce (rr : Nat) (x : FVal) : Reduced :=
  match x with
  | .nan => .done .nan
  | .inf neg =>
    match rr with
    | 0 => .outside (!neg)
    | 1 => .done (if neg then FVal.zero else .inf false)
    | 3 => .done .nan
    | 4 | 5 => .outside true
    | 6 => .done (.fin neg 0 0)
    | 7 => if neg then .negArg else .done FVal.zero
    | _ => if neg then .negArg else .done (.inf false)
  | .fin neg m e =>
    let n := (FVal.fin neg m e).ilog2
    match rr with
    | 0 => .at_ x false 0
    | 1 => .at_ (x.add 0 (FVal.ofInt x.floor).neg) false x.floor
    | 2 => if m = 0 then .done (.inf true) else if neg then .negArg else .at_ (x.scale (-n)) false n
    | 3 => .at_ (x.add 0 (FVal.ofInt x.floor).neg) false 0
    | 4 => .at_ x.abs neg 0
    | 5 => .at_ x.abs false 0
    | 6 => if m = 0 then .done (.inf neg) else .at_ (x.abs.scale (-n)) neg n
    | 7 =>
      if m = 0 then (if neg then .unstated else .done (.inf false))
      else if neg then .negArg else .at_ (x.scale (-(2 * (n / 2)))) false (n / 2)
    | _ =>
      if m = 0 then .done x else if neg then .negArg else .at_ (x.scale (-(2 * (n / 2)))) false (n / 2)

/-- The result column of Table 6.5. A power of two beyond 1,000 over- or underflows like 1,000. -/
def ftResult (rr : Nat) (p : FVal) (neg : Bool) (n : Int) : FVal :=
  match rr with
  | 1 => binary32.round (p.scale (max (-1000) (min 1000 n)))
  | 2 => binary32.round (p.add 0 (FVal.ofInt n))
  | 4 => if neg then p.neg else p
  | 6 => binary32.round ((if neg then p.neg else p).scale (-n))
  | 7 => binary32.round (p.scale (-n))
  | 8 => binary32.round (p.scale n)
  | _ => p

/-- The coefficients of an image are finite. -/
def ftFinite (b : List Byte) : Bool :=
  (List.range (4 * ftNseg b)).all fun k => !(binary32.decode (leAt b (64 + 4 * k) 4)).special

/-- An infinite result of FUNC was rounded to: the argument and the coefficients are finite, and it is none of the listed
results of Table 6.5 for an argument that x × C did not itself round to infinity. -/
def ftOvf (b : List Byte) (x : FVal) : Bool :=
  let y := binary32.round (x.mul (ftC b))
  !x.special && ftFinite b && (y.special || match ftReduce (ftRr b) y with
    | .done _ => false
    | _ => true)

/-- FUNC of one element (R186, R187): its value, or none for lane fault 0x44, and whether it was out of domain. `k` is
the occasion of a result that the manual does not state (the reciprocal square root of −0). -/
def ftEval (b : List Byte) (starts : List FVal) (k : Nat) (x : FVal) : Option FVal × Bool :=
  let rr := ftRr b
  let ood := fun (clamp : FVal) =>
    match ftOod b with
    | 0 => (some clamp, true)
    | 1 => (some .nan, true)
    | _ => (none, true)
  let high := binary32.round ((starts.getD (ftNseg b - 1) .nan).add 0 (ftWidth b))
  let x := binary32.round (x.mul (ftC b))
  match ftReduce rr x with
  | .done v => (some v, false)
  | .unstated => (some (binary32.decode ((Config.freeWord k).toNat % 2 ^ 32)), false)
  | .negArg => ood .nan
  | .outside hi =>
    ood (ftResult rr (ftPoly b starts (if hi then high else ftLo b)) x.sign 0)
  | .at_ y neg n =>
    if y.lt (ftLo b) then ood (ftResult rr (ftPoly b starts (ftLo b)) neg n)
    else if !y.lt (ftHi b) then ood (ftResult rr (ftPoly b starts high) neg n)
    else (some (ftResult rr (ftPoly b starts y) neg n), false)

/-- FUNC (R186). One that ends with a lane fault has counted the out-of-domain arguments up to the element at fault (R187
counts each before OOD decides; DESIGN CHOICE, assumption 42). -/
def State.funcRun (s : State) (c : Nat) (e : Entry) : Except VeErr (Srcs × Opd × VeRes) :=
  let f := e.ve
  let n := e.len
  let core := s.core c
  let slot := vget core.ve.slots f.fn
  if slot.st ≠ 2 then .error { code := 0x45 }
  else
    match e.srcA n, e.mask n with
    | .ok a, .ok m =>
      let starts := ftStarts slot.bytes
      let (draws, ls) := s.veDraws c e n
      let ys := (List.range n).map fun i =>
        let x := a.value f.fs core.skillet core.me.acc i
        let y := ftEval slot.bytes starts (s.freeCtr + i) x
        (({ i := i, active := maskBit core.skillet m i, v := y.1, ovf := ftOvf slot.bytes x } : Elem), y.2)
      let ood := fun k => (ys.filter fun y => y.2 && decide (y.1.i < k)).length
      match e.place 0x44 n draws (ys.map (·.1)) with
      | .ok r => .ok (srcOpds n a [], r.1, { r.2 with lanes := ls, ood := ood n })
      | .error k => .error { k with ood := if k.code = 0x15 then 0 else ood (k.pos + 1) }
    | .error k, _ => .error k
    | _, .error k => .error k

/-! ## SLICE and COMBINE (R188 to R191) -/

/-- Exponent of element `i` (R188). -/
def sliceExp (skl : Mem) (base g i : Nat) (perPos : Bool) : Int :=
  sextN 16 (skl.readLE (base + 2 * (if perPos then i % g else i / g)) 2)

/-- Entries of the exponent array that `n` elements use. -/
def expEntries (n g : Nat) (perPos : Bool) : Nat := if perPos then min n g else ceilDiv n g

/-- The slice A_p of a = x · 2^−e (R188). -/
def sliceOf (a : FVal) (p : Nat) : Int := (a.scale (7 * p)).trunc - 128 * (a.scale (7 * (p - 1 : Nat))).trunc

/-- SLICE, the split (R188, R190). -/
def State.sliceRun (s : State) (c : Nat) (e : Entry) : Except VeErr (Srcs × Option Opd × VeRes) :=
  let f := e.ve
  let n := e.len
  let g := e.grp
  let sl := f.fn % 16
  let perPos := bitOf f.fn 4
  let core := s.core c
  let ps := e.g f.rc
  if ps % 64 ≠ 0 then .error (.at (bitsOf (e.g f.rd) 22 0))
  else
    match e.srcA n, e.mask n, opdOf (e.g f.rd) 0x17 n, rangeOf (e.g f.rb) 2 (2 * expEntries n g perPos) with
    | .ok a, .ok m, .ok dst, .ok eb =>
      if outOfSkillet (dst.addr + (sl - 1) * ps) n then .error (.at (dst.addr + (sl - 1) * ps))
      else
        let one := fun i =>
          let x := a.value f.fs core.skillet core.me.acc i
          let ex := sliceExp core.skillet eb g i perPos
          let bad := x.special || (!x.isZero && decide (ex < x.ilog2 + 1))
          (i, maskBit core.skillet m i, bad, x.scale (-ex))
        let xs := (List.range n).map one
        if xs.any fun x => x.2.1 && x.2.2.1 then .error { code := 0x43 }
        else
          let ok := xs.filter fun x => x.2.1
          let wr := ok.flatMap fun x => (List.range sl).map fun p =>
            { bit := 8 * (dst.addr + p * ps + x.1), w := 8, v := (sliceOf x.2.2.2 (p + 1) % 256).toNat : Wr }
          .ok (srcOpds n a [], none,
            { wr := wr, elems := ok.length * sl, supp := (xs.filter fun x => !x.2.1 && x.2.2.1).length })
    | .error k, _, _, _ => .error k
    | _, .error k, _, _ => .error k
    | _, _, .error k, _ => .error k
    | _, _, _, .error k => .error k

/-- SLICE, the join (R189). -/
def State.joinRun (s : State) (c : Nat) (e : Entry) : Except VeErr (Srcs × Opd × VeRes) :=
  let f := e.ve
  let n := e.len
  let g := e.grp
  let sl := f.fn % 16
  let perPos := bitOf f.fn 4
  let skl := (s.core c).skillet
  let ps := e.g f.rc
  if ps % 64 ≠ 0 then .error (.at (bitsOf (e.g f.ra) 22 0))
  else
    match opdOf (e.g f.ra) 0x17 n, e.mask n, rangeOf (e.g f.rb) 2 (2 * expEntries n g perPos) with
    | .ok a, .ok m, .ok eb =>
      if outOfSkillet (a.addr + (sl - 1) * ps) n then .error (.at (a.addr + (sl - 1) * ps))
      else
        let (draws, ls) := s.veDraws c e n
        let one := fun i =>
          let part := fun p => (FVal.ofInt (sextN 8 (skl.read (a.addr + p * ps + i)).toNat)).scale (-(7 * (p + 1 : Nat) : Int))
          let v := (List.range (sl - 1)).foldl (fun v p => v.add f.rnd (part (p + 1))) (part 0)
          v.scale (sliceExp skl eb g i perPos)
        let xs := (List.range n).map fun i => { i := i, active := maskBit skl m i, v := some (one i) }
        let srcs := (List.range sl).map fun p => ({ a with addr := a.addr + p * ps }, n)
        (e.place 0x43 n draws xs).map fun r => (srcs, r.1, { r.2 with lanes := ls })
    | .error k, _, _ => .error k
    | _, .error k, _ => .error k
    | _, _, .error k => .error k

/-- COMBINE (R191). -/
def State.combineRun (s : State) (c : Nat) (e : Entry) : Except VeErr (Srcs × Option Opd × VeRes) :=
  let f := e.ve
  let n := e.len
  let core := s.core c
  let skl := core.skillet
  let pa := e.g f.rb
  if pa % 64 ≠ 0 ∨ outOfSkillet pa 64 then .error (.at pa)
  else
    let p := skl.readN pa 64
    let off1 := leAt p 0 2
    let nb := leAt p 2 1
    let s0 := sextN 16 (leAt p 4 2)
    let s1 := sextN 16 (leAt p 6 2)
    let rs := leAt p 8 4
    let er := leAt p 16 8
    let ec := leAt p 24 8
    let rows := n / 32
    let row := e.accRow
    let sz := fmtBits f.fd / 8
    if leAt p 3 1 ≠ 0 ∨ leAt p 12 4 ≠ 0 ∨ ((p.drop 32).any (· != 0)) = true ∨ (nb ≠ 1 ∧ nb ≠ 2)
        ∨ (nb = 2 ∧ 1024 < row + off1 + rows) then .error { code := 0x48 }
    else if rs % 8 ≠ 0 then .error (.at pa)
    else
      match e.mask n, rangeOf er 2 (2 * rows), rangeOf ec 2 64, rangeOf (bitsOf (e.g f.rd) 22 0) sz ((rows - 1) * rs + 32 * sz) with
      | .ok m, .ok er, .ok ec, .ok d =>
        let (draws, ls) := s.veDraws c e n
        let one := fun i =>
          let k := i / 32
          let j := i % 32
          let w0 := (FVal.ofInt (accWide core.me.acc (row + k) j)).scale s0
          let v := if nb = 2 then w0.add f.rnd ((FVal.ofInt (accWide core.me.acc (row + k + off1) j)).scale s1) else w0
          v.scale (sextN 16 (skl.readLE (er + 2 * k) 2) + sextN 16 (skl.readLE (ec + 2 * j) 2))
        let xs := ((List.range n).filter fun i => maskBit skl m i).map fun i =>
          (i, (convertTo f.fd f.rnd (draws.getD i 0) f.sat (one i)).getD { code := 0 })
        let wr := xs.map fun x =>
          { bit := 8 * (d + x.1 / 32 * rs + x.1 % 32 * sz), w := 8 * sz, v := x.2.code : Wr }
        .ok ([], none,
          { wr := wr, elems := xs.length, lanes := ls, clip := sumL (xs.map fun x => b2n x.2.clip)
            inf := sumL (xs.map fun x => b2n x.2.toInf), nan := sumL (xs.map fun x => b2n x.2.isNan) })
      | .error k, _, _, _ => .error k
      | _, .error k, _, _ => .error k
      | _, _, .error k, _ => .error k
      | _, _, _, .error k => .error k

/-! ## Rates (R168) -/

/-- Bytes that a strip of an operand reads: a packed strip its size, a strided one 64 for each distinct word. -/
def Opd.stripBytes (o : Opd) : Nat :=
  if o.bits = 4 then 128
  else if o.stride = o.bits / 8 then 32 * o.bits
  else 64 * (((List.range 256).map fun i => (o.addr + i * o.stride) / 64).eraseDups).length

/-- 2,048 times the cycles per strip (R168), from 2,048 / a, R, W and A. -/
def stripCycles (inv r w a : Nat) : Nat := max (max inv r) (max (2 * w) (2048 * a))

/-- 2,048 / a of an operation (Table 6.1). -/
def Entry.invRate (e : Entry) (deg : Nat) : Nat :=
  let f := e.ve
  let wide := f.fs = 0x11 ∨ f.fs = 0x16 ∨ (f.aacc ∧ f.wide)
  match e.op with
  | 0x0A => 1024
  | 0x20 => 2048 * max 1 deg
  | 0x30 | 0x31 | 0x38 => 2048
  | 0x39 => 8192
  | _ => if wide then 8192 else if f.fs = 0x10 ∨ f.fs = 0x13 ∨ f.aacc then 2048 else 1024

/-- Cycles in which strips enter (VE_CNT_2): with up to one cycle per strip, the cycles of the whole; else one each. -/
def stripEntries (n c2048 : Nat) : Nat := if c2048 ≤ 2048 then ceilDiv (n * c2048) 2048 else n

/-- Bytes that an instruction writes per strip; the outputs of REDUCE are spread over its strips (R168). -/
def Entry.stripWrites (e : Entry) : Nat :=
  let f := e.ve
  match e.op with
  | 0x09 => 32
  | 0x10 => (if bitOf f.fn 3 then e.grp else e.len / e.grp) * fmtBits f.fd / 8 / ceilDiv e.len 256
  | 0x38 => if bitOf f.fn 5 then 32 * fmtBits f.fd else 256 * (f.fn % 16)
  | _ => 32 * fmtBits f.fd + (if isMx f.fd then 8 else 0)

/-- Bytes read and written per strip by an instruction. -/
def Entry.traffic (e : Entry) (srcs : Srcs) (deg : Nat) : Nat :=
  let f := e.ve
  let r := sumL (srcs.map fun o => o.1.stripBytes) + (if f.rm = 0 then 0 else 32) + (if isMx f.fs then 8 else 0)
    + (if e.op = 0x30 ∨ e.op = 0x31 then 32 * fmtBits f.fd else 0)
  let a := if e.op = 0x39 then 4 else if f.aacc then (if f.wide then 2 else 1) else 0
  stripCycles (e.invRate deg) r e.stripWrites a

/-! ## Beginning an instruction -/

/-- A byte range joined to the first of a list that it begins in or goes on from. -/
def addRange (a len : Nat) : List (Nat × Nat) → List (Nat × Nat)
  | [] => [(a, len)]
  | (b, l) :: rs => if b ≤ a ∧ a ≤ b + l then (b, max l (a + len - b)) :: rs else (b, l) :: addRange a len rs

/-- The bytes that an instruction writes, as ranges (R166). -/
def wrRanges (ws : List Wr) : List (Nat × Nat) := ws.foldl (fun rs x => addRange (x.bit / 8) (max 1 (x.w / 8)) rs) []

/-- An instruction with its result takes effect: a write into the program region raises 0x16 (R73); else its writes
are performed and counted, and it waits in the pipeline to complete. All of them are made at the begin: where an engine of
another queue reads those bytes without a token between, that it reads after the write is the model's choice (R83 leaves the
order open; DESIGN CHOICE, assumption 43). -/
def State.veCommit (s : State) (c : Nat) (e : Entry) (srcs : Srcs) (dst : Option Opd) (r : VeRes) (deg : Nat) : State :=
  match r.wr.find? fun w => decide (w.bit / 8 < (s.core c).progEnd) with
  | some w => s.raiseFault c 2 0x16 e.pc (.skillet (w.bit / 8))
  | none =>
    let k := s.freeCtr
    let wr := r.wr.map (fixOverlap srcs dst k)
    let s := { s with freeCtr := k + e.len + 1 }
    let n := ceilDiv e.len 256
    s.modCore c fun core =>
      let b := fun (v : Vector Nat 16) (i x : Nat) => bumpBy v i x
      let cnt := b (b (b (b (b core.ve.cnt 1 n) 2 (stripEntries n (e.traffic srcs deg))) 3 r.elems) 4 r.supp) 5 r.clip
      let cnt := b (b (b (b cnt 6 r.inf) 7 r.nan) 8 r.ood) 13 r.ffBlocks
      let cnt := if r.lanes.isSome then b cnt 9 e.len else cnt
      let cnt := if e.ve.aacc ∨ e.op = 0x39 then b cnt 10 n else cnt
      { core with
        skillet := wr.foldl Mem.put core.skillet
        flights := vmod core.flights 1 (fun l => l ++ [{ e := e, writes := wrRanges wr, setTok := r.tok }])
        ve := { core.ve with cnt := cnt, lanes := r.lanes.getD core.ve.lanes } }

/-- The fault of an operation is raised; out-of-domain arguments before it are counted (R93, R187). -/
def State.veFault (s : State) (c : Nat) (e : Entry) (x : VeErr) : State :=
  (s.modCore c fun k => { k with ve := { k.ve with cnt := bumpBy k.ve.cnt 8 x.ood } }).raiseFault c 2 x.code e.pc x.addr

/-- The result of an operation takes effect, or its fault is raised (R93, R193). -/
def State.veFinish (s : State) (c : Nat) (e : Entry) (x : Except VeErr (Srcs × Opd × VeRes)) : State :=
  match x with
  | .error x => s.veFault c e x
  | .ok (srcs, dst, r) => s.veCommit c e srcs (some dst) r (ftDeg (vget (s.core c).ve.slots (e.ve.fn % 8)).bytes)

/-- The same for an operation whose destination is no packed operand. -/
def State.veFinishAt (s : State) (c : Nat) (e : Entry) (x : Except VeErr (Srcs × Option Opd × VeRes)) : State :=
  match x with
  | .error x => s.veFault c e x
  | .ok (srcs, dst, r) => s.veCommit c e srcs dst r 0

/-- ADD begins (R170). -/
def State.beginVeAdd (s : State) (c : Nat) (e : Entry) : State :=
  s.veFinish c e (s.elementwise c e fun a b _ => a.add e.ve.rnd b)
/-- SUB begins (R170). -/
def State.beginVeSub (s : State) (c : Nat) (e : Entry) : State :=
  s.veFinish c e (s.elementwise c e fun a b _ => a.add e.ve.rnd b.neg)
/-- MUL begins (R170). -/
def State.beginVeMul (s : State) (c : Nat) (e : Entry) : State :=
  s.veFinish c e (s.elementwise c e fun a b _ => a.mul b)
/-- FMA begins (R170). -/
def State.beginFma (s : State) (c : Nat) (e : Entry) : State :=
  s.veFinish c e (s.elementwise c e fun a b k => (a.mul b).add e.ve.rnd k)
/-- MIN begins (R170, R171). -/
def State.beginVeMin (s : State) (c : Nat) (e : Entry) : State :=
  s.veFinish c e (s.elementwise c e fun a b _ => a.min b)
/-- MAX begins (R170, R171). -/
def State.beginVeMax (s : State) (c : Nat) (e : Entry) : State :=
  s.veFinish c e (s.elementwise c e fun a b _ => a.max b)
/-- UNARY begins (R170): NEG, ABS or COPY. -/
def State.beginUnary (s : State) (c : Nat) (e : Entry) : State :=
  s.veFinish c e (s.elementwise c e fun a _ _ => match e.ve.fn with
    | 0 => a.neg
    | 1 => a.abs
    | _ => a)
/-- BIT begins (R172). -/
def State.beginBit (s : State) (c : Nat) (e : Entry) : State := s.veFinish c e (s.bitRun c e)
/-- CMP begins (R173). -/
def State.beginVeCmp (s : State) (c : Nat) (e : Entry) : State := s.veFinishAt c e (s.cmpRun c e)
/-- CVT begins (R175). -/
def State.beginCvt (s : State) (c : Nat) (e : Entry) : State := s.veFinish c e (s.convertOp c e)
/-- REDUCE begins (R174). -/
def State.beginReduce (s : State) (c : Nat) (e : Entry) : State := s.veFinish c e (s.reduceRun c e)
/-- FUNC begins (R186). -/
def State.beginFunc (s : State) (c : Nat) (e : Entry) : State := s.veFinish c e (s.funcRun c e)
/-- COMPRESS begins (R182). -/
def State.beginCompress (s : State) (c : Nat) (e : Entry) : State := s.veFinish c e (s.compressRun c e)
/-- EXPAND begins (R182). -/
def State.beginExpand (s : State) (c : Nat) (e : Entry) : State := s.veFinish c e (s.expandRun c e)
/-- SLICE begins: the split or the join (R188, R189). -/
def State.beginSlice (s : State) (c : Nat) (e : Entry) : State :=
  if bitOf e.ve.fn 5 then s.veFinish c e (s.joinRun c e) else s.veFinishAt c e (s.sliceRun c e)
/-- COMBINE begins (R191). -/
def State.beginCombine (s : State) (c : Nat) (e : Entry) : State := s.veFinishAt c e (s.combineRun c e)

/-- A change of a table slot. -/
def CoreSt.setSlot (c : CoreSt) (t : Nat) (x : FtSlot) : CoreSt := { c with ve := { c.ve with slots := vset c.ve.slots t x } }

/-- An instruction of an in-order engine enters execution: entry `i` of the flights. -/
def CoreSt.launch (c : CoreSt) (i : Nat) (f : Flight) : CoreSt := { c with flights := vmod c.flights i fun l => l ++ [f] }

/-- FTLOAD begins (R184): an invalid image leaves the slot EMPTY and raises 0x45. -/
def State.beginFtload (s : State) (c : Nat) (e : Entry) : State :=
  let a := e.g e.ve.ra
  let t := e.ve.fn
  if a % 64 ≠ 0 ∨ outOfSkillet a 64 then s.raiseFault c 2 0x15 e.pc (.skillet a)
  else
    let h := (s.core c).skillet.readN a 64
    let len := 64 + 16 * ftNseg h
    if ftBad h then (s.modCore c fun k => k.setSlot t {}).raiseFault c 2 0x45 e.pc (.skillet a)
    else if outOfSkillet a len then s.raiseFault c 2 0x15 e.pc (.skillet a)
    else s.modCore c fun k => (k.setSlot t { st := 1, bytes := k.skillet.readN a len }).launch 1 { e := e }

/-- VSEED begins: S is set and every lane's state recomputed (R180). -/
def VeSt.reseed (v : VeSt) (n : Nat) (seed : Word) : VeSt :=
  { v with seed := seed, lanes := vofList 256 ((List.range 256).map fun l => laneInit seed.toNat n l) }

def State.beginVseed (s : State) (c : Nat) (e : Entry) : State :=
  s.modCore c fun k => ({ k with ve := k.ve.reseed c (vget e.regs e.ve.ra) }).launch 1 { e := e }

/-! ## Waiting to begin (R166, R184) -/

/-- A strided or packed area's lowest to highest byte. -/
def opdRange (w fmt n : Nat) : List (Nat × Nat) :=
  match opdOf w fmt n with
  | .ok o => [(o.addr, o.span n)]
  | .error _ => []

/-- The Skillet areas that an instruction reads (R166). -/
def State.veReads (s : State) (c : Nat) (e : Entry) : List (Nat × Nat) :=
  let f := e.ve
  let n := e.len
  let mask := if f.rm = 0 then [] else [(e.g f.rm, ceilDiv n 8)]
  match e.op with
  | 0x21 => [(e.g f.ra, 64 + 16 * ftNseg ((s.core c).skillet.readN (e.g f.ra) 64))]
  | 0x3F => []
  | 0x39 =>
    let p := (s.core c).skillet.readN (e.g f.rb) 64
    (e.g f.rb, 64) :: (leAt p 16 8, n / 16) :: (leAt p 24 8, 64) :: mask
  | 0x38 =>
    let ex := (e.g f.rb, 2 * expEntries n (max 1 e.grp) (bitOf f.fn 4))
    if bitOf f.fn 5 then ex :: (bitsOf (e.g f.ra) 22 0, (f.fn % 16 - 1) * e.g f.rc + n) :: mask
    else ex :: (if f.aacc then [] else opdRange (e.g f.ra) f.fs n) ++ mask
  | 0x31 =>
    let m := if f.rm = 0 then none else some (e.g f.rm)
    let act := ((List.range n).filter fun i => maskBit (s.core c).skillet m i).length
    (if f.aacc then [] else opdRange (e.g f.ra) f.fs act) ++ mask
  | _ =>
    (if f.aacc then [] else opdRange (e.g f.ra) f.fs n)
      ++ (if f.bk = 1 then opdRange (e.g f.rb) f.fs n else [])
      ++ (if f.ck = 1 then opdRange (e.g f.rc) f.fs n else [])
      ++ (if e.op = 0x0A ∧ isMx f.fs = true then [(e.g f.rb, ceilDiv n 32)] else []) ++ mask

/-- An instruction waits for a write that is pending (R166). -/
def State.vePending (s : State) (c : Nat) (e : Entry) : Bool :=
  let rs := s.veReads c e
  (vget (s.core c).flights 1).any fun f => f.writes.any fun w => rs.any fun r => rangesMeet w.1 w.2 r.1 r.2

/-- An instruction waits for a write that is pending (R166), or for a table (R184). -/
def State.veHeld (s : State) (c : Nat) (e : Entry) : Bool :=
  let fl := vget (s.core c).flights 1
  s.vePending c e
    || (e.op == 0x20 && (vget (s.core c).ve.slots (e.ve.fn % 8)).st == 1)
    || (e.op == 0x21 && fl.any fun f => f.e.op == 0x20 && !f.e.null && f.e.ve.fn == e.ve.fn)

end Sys2Proof.Machine
end

