-- ==== Sys2Proof/Machine/Exchange.lean ====
section
/-!
DEFINITION. The Exchange: receive windows, credits, remote writes and the rendezvous instruction (R120 to R131, R369).
-/

namespace Sys2Proof.Machine

open Sys2Proof

/-! ## Static checks (R76, R131, R369) -/

/-- WOPEN has a nonzero bit in an undefined field, or a token in credit mode. -/
def wopenBad (e : Entry) : Bool :=
  e.h.mod != 0 || fld e.b 42 0 != 0 || (fld e.b 59 59 == 0 && fld e.b 58 53 != 0)

/-- WCLOSE has a nonzero bit in an undefined field. -/
def wcloseBad (e : Entry) : Bool := e.h.mod != 0 || fld e.b 59 0 != 0

/-- GRANT has a nonzero bit in an undefined field. -/
def grantBad (e : Entry) : Bool := e.h.mod != 0 || fld e.b 59 59 != 0 || fld e.b 37 0 != 0

/-- PUT has a nonzero bit in an undefined field. -/
def putBad (e : Entry) : Bool :=
  e.h.mod != 0 || fld e.b 63 60 != 0 || fld e.b 58 53 != 0 || fld e.b 32 0 != 0

/-- WOPEN: a base or length that is no multiple of 64 B or leaves the Skillet, or a length of 0 (R120, R131). -/
def wopenValueBad (e : Entry) : Bool :=
  let base := (e.reg 52 48).toNat
  let len := (e.reg 47 43).toNat
  base % 64 != 0 || len % 64 != 0 || decide (len < 64) || decide (skilletBytes < base + len)

/-- GRANT: an offset or length that is no multiple of 64 B, a length of 0, or a core above 191 (R131). -/
def grantValueBad (e : Entry) : Bool :=
  let len := (e.reg 42 38).toNat
  (e.reg 47 43).toNat % 64 != 0 || len % 64 != 0 || decide (len < 64) || decide (191 < bitsOf (e.reg 52 48).toNat 21 14)

/-- PUT: an offset or length that is no multiple of 64 B, a length outside 64 B to 1 MiB, or a core above 191. An offset that
the 23 bits of Table 4.15 cannot carry counts as out of range; an offset and length that together pass 2^23 are left to the
receiver, which R131 does not say either (DESIGN CHOICE, assumption 39). -/
def putValueBad (e : Entry) : Bool :=
  let off := (e.reg 42 38).toNat
  let len := (e.reg 37 33).toNat
  off % 64 != 0 || len % 64 != 0 || decide (len < 64) || decide (2 ^ 20 < len) || decide (2 ^ 23 ≤ off)
    || decide (191 < bitsOf (e.reg 47 43).toNat 21 14)

/-- RDV has a nonzero bit in an undefined field. -/
def rdvBad (e : Entry) : Bool := e.h.mod != 0 || fld e.b 55 0 != 0

/-! ## Windows (R120, R130) -/

/-- Slot `w` closed: its epoch advances and its credits are cancelled and counted (R130). -/
def CoreSt.closeWindow (c : CoreSt) (w : Nat) : CoreSt :=
  let n := (c.ownCredits.filter fun x => x.win == w).length
  let c := { c with
    wins := vmod c.wins w fun x => { x with isOpen := false, epoch := (x.epoch + 1) % 65536 }
    ownCredits := c.ownCredits.filter fun x => x.win != w }
  c.xchBump 6 n

/-- A range overlaps an OPEN window of the core. -/
def CoreSt.meetsWindow (c : CoreSt) (base len : Nat) : Bool :=
  c.wins.toList.any fun w => w.isOpen && rangesMeet base len w.base w.length

/-- WOPEN begins, takes effect and is done (R120, R122). Its values were checked at the head of the queue, so where 0x48 and
0x1A both apply, 0x48 is raised (R131 gives no order; DESIGN CHOICE, assumption 39). -/
def State.beginWopen (s : State) (n : Nat) (e : Entry) : State :=
  let base := (e.reg 52 48).toNat
  let len := (e.reg 47 43).toNat
  let w := fld e.b 63 60
  let c := s.core n
  if (vget c.wins w).isOpen ∨ base < c.progEnd ∨ c.meetsWindow base len = true then
    s.raiseFault n 5 0x1A e.pc .none
  else
    s.modCore n fun c =>
      let x : Window :=
        { isOpen := true, mode := fld e.b 59 59 == 1, tk := fld e.b 58 53, epoch := c.epoch, base := base, length := len }
      ({ c with wins := vset c.wins w x }).launch 4 { e := e, done := true }

/-- WCLOSE begins, takes effect and is done (R130). -/
def State.beginWclose (s : State) (n : Nat) (e : Entry) : State :=
  let w := fld e.b 63 60
  if (vget (s.core n).wins w).isOpen = false then s.raiseFault n 5 0x1A e.pc .none
  else s.modCore n fun c => (c.closeWindow w).launch 4 { e := e, done := true }

/-- Credits outstanding on a window (R127). -/
def CoreSt.creditsOn (c : CoreSt) (w : Nat) : Nat := (c.ownCredits.filter fun x => x.win == w).length

/-- The credit of GRANT goes to the sender core (R127). -/
def State.sendCredit (s : State) (n : Nat) (x : OwnCredit) : State :=
  let c := s.core n
  s.sendFabric
    { body := .grant
        { srcPkg := s.cfg.pkgId, srcCore := n, dstCore := x.core, tag := x.tag, identity := c.identity,
          epoch := c.epoch, win := x.win, winEpoch := (vget c.wins x.win).epoch, offset := x.offset,
          length := x.length }
      dst := x.pkg, dunit := x.core, sunit := n, tag := x.tag }

/-- GRANT begins (R127, R131): the credit is recorded and sent. Its values were checked at the head of the queue; a slot that
is CLOSED or in counter mode raises 0x1A before the range is held against its length (R131 gives no order; DESIGN CHOICE,
assumption 39). -/
def State.beginGrant (s : State) (n : Nat) (e : Entry) : State :=
  let snd := (e.reg 52 48).toNat
  let off := (e.reg 47 43).toNat
  let len := (e.reg 42 38).toNat
  let w := fld e.b 63 60
  let win := vget (s.core n).wins w
  if win.isOpen = false ∨ win.mode = true then s.raiseFault n 5 0x1A e.pc .none
  else if win.length < off + len then s.raiseFault n 5 0x48 e.pc .none
  else
    let (tag, s) := s.freshTag
    let x : OwnCredit :=
      { tag := tag, win := w, pkg := bitsOf snd 13 0, core := bitsOf snd 21 14, offset := off, length := len,
        tk := fld e.b 58 53, sentEdge := s.edge, lastEdge := s.edge }
    let s := s.modCore n fun c =>
      ({ c with ownCredits := c.ownCredits ++ [x] }).launch 4 { e := e, tags := [tag] }
    s.sendCredit n x

/-! ## PUT (R124, R125, R129) -/

/-- A held credit covers a PUT (R129). -/
def HeldCredit.covers (x : HeldCredit) (pkg core win off len : Nat) : Bool :=
  x.pkg == pkg && x.core == core && x.win == win && decide (x.offset ≤ off) && decide (off + len ≤ x.offset + x.length)
    && decide (x.used + len ≤ x.length)

/-- A credit after `len` bytes of it are consumed; one that is fully consumed is discarded (R129). -/
def HeldCredit.consume (len : Nat) (x : HeldCredit) : HeldCredit := { x with used := x.used + len }

/-- The source of a PUT leaves the Skillet (R131). -/
def putOutside (e : Entry) : Bool := outOfSkillet (e.reg 52 48).toNat (e.reg 37 33).toNat

/-- A PUT in credit mode waits for a credit at the head of its queue (R129). -/
def CoreSt.putWaits (c : CoreSt) (e : Entry) : Bool :=
  let tgt := (e.reg 47 43).toNat
  fld e.b 59 59 == 0 && !(c.credits.any fun x =>
    x.covers (bitsOf tgt 13 0) (bitsOf tgt 21 14) (bitsOf tgt 25 22) (e.reg 42 38).toNat (e.reg 37 33).toNat)

/-- The message of one arrival; its bytes are read from the Skillet as it is sent (R125, R329). -/
def State.sendArrival (s : State) (n : Nat) (x : SentPut) : State :=
  let c := s.core n
  s.sendFabric
    { body := .put
        { srcPkg := s.cfg.pkgId, srcCore := n, dstCore := x.core, tag := x.tag, identity := c.identity,
          epoch := c.epoch, win := x.win, mode := x.mode, offset := x.offset, index := x.index,
          data := c.skillet.readN x.src x.length }
      dst := x.pkg, dunit := x.core, sunit := n, tag := x.tag }

/-- Arrivals `i` on of a PUT are sent (R124): their tags, oldest first. -/
def State.sendArrivals (n : Nat) (x : SentPut) (len : Nat) : Nat → Nat → State → List Nat × State
  | 0, _, s => ([], s)
  | fuel + 1, i, s =>
    if len ≤ 2048 * i then ([], s)
    else
      let (tag, s) := s.freshTag
      let y := { x with
        tag := tag, src := x.src + 2048 * i, offset := x.offset + 2048 * i, length := min 2048 (len - 2048 * i), index := i
        sentEdge := s.edge }
      let s := (s.modCore n fun c => ({ c with puts := c.puts ++ [y] }).xchBump 7 1).sendArrival n y
      let r := State.sendArrivals n x len fuel (i + 1) s
      (tag :: r.1, r.2)

/-- PUT begins: it consumes its credit and sends its arrivals (R124, R129). Of several credits that cover its bytes it
consumes the one that came first (R129 names none; DESIGN CHOICE, assumption 39). -/
def State.beginPut (s : State) (n : Nat) (e : Entry) : State :=
  let src := (e.reg 52 48).toNat
  let tgt := (e.reg 47 43).toNat
  let off := (e.reg 42 38).toNat
  let len := (e.reg 37 33).toNat
  let pkg := bitsOf tgt 13 0
  let core := bitsOf tgt 21 14
  let win := bitsOf tgt 25 22
  let mode := fld e.b 59 59 == 1
  if putOutside e then s.raiseFault n 5 0x15 e.pc (.skillet src)
  else
    let s := if mode then s else s.modCore n fun c =>
      { c with credits :=
          (modFirst (fun x => x.covers pkg core win off len) (HeldCredit.consume len) c.credits).filter fun x =>
            decide (x.used < x.length) }
    let x : SentPut :=
      { tag := 0, pkg := pkg, core := core, src := src, offset := off, win := win, mode := mode, length := len, index := 0,
        pc := e.pc, sentEdge := s.edge }
    let (tags, s) := State.sendArrivals n x len 512 0 s
    s.modCore n fun c => c.launch 4 { e := e, tags := tags }

/-! ## RDV (R58, R63, R369) -/

/-- The last rendezvous index that a core has executed in the group. -/
def Group.lastOf (g : Group) (n : Nat) : Option Nat := (g.rdvs.find? fun r => r.1 == n).map fun r => r.2.1

/-- READY for rendezvous `k` goes to every peer, once (R58, R63). -/
def State.sendReady (s : State) (c : Cmd) (g : Group) (k : Nat) : State :=
  let s := s.modGroup c.acceptNo fun g => { g with readySent := g.readySent ++ [k] }
  (s.peers g k).foldl (fun s p => s.sendUnit p (.ready g.gid k)) s

/-- READY for `k` is sent when every core of the command on the package has executed RDV for it (R369). -/
def State.tryReady (s : State) (a k : Nat) : State :=
  match s.getCmd a with
  | none => s
  | some c => match c.group with
    | none => s
    | some g =>
      let all := c.cores.all fun n => match g.lastOf n with
        | some j => decide (k ≤ j)
        | none => false
      if all ∧ !g.readySent.contains k ∧ g.voted = none then s.sendReady c g k else s

/-- RDV begins: the core is ready for rendezvous K (R369). -/
def State.beginRdv (s : State) (n : Nat) (e : Entry) : State :=
  let k := fld e.b 63 56
  let c := s.core n
  let next := match c.lastK with
    | none => 0
    | some j => j + 1
  if !c.group ∨ c.nrdv ≤ k + 1 ∨ k ≠ next then s.raiseFault n 5 0x48 e.pc .none
  else
    let s := s.modCore n fun c => ({ c with lastK := some k }).launch 4 { e := e }
    let a := c.cmd.getD 0
    let s := s.modGroup a fun g => { g with rdvs := (n, k, s.edge) :: g.rdvs.filter fun r => r.1 != n }
    s.tryReady a k

/-! ## Answers (R79, R123, R127) -/

/-- A flight of the Exchange no longer waits for a tag; with none left it is done. -/
def Flight.answered (tag : Nat) (f : Flight) : Flight :=
  if f.tags.contains tag then
    { f with tags := f.tags.filter fun t => t != tag, done := decide ((f.tags.filter fun t => t != tag) = []) }
  else f

/-- The Exchange instructions in execution after the answer to a tag. -/
def CoreSt.answered (c : CoreSt) (tag : Nat) : CoreSt :=
  { c with flights := vmod c.flights 4 fun l => l.map (Flight.answered tag) }

end Sys2Proof.Machine
end

