-- ==== Sys2Proof/Machine/Matrix.lean ====
section
/-!
DEFINITION. The matrix engine: encoding checks, stationary sets, input-buffer fills, streaming products and the copy of
the accumulator (R134 to R158). An instruction's data moves in the step in which it begins.
-/

namespace Sys2Proof.Machine

open Sys2Proof

/-- Sub-arrays of a shape (Table 5.1). -/
def subArrays (shape : Nat) : Nat :=
  match shape with
  | 0 => 1
  | 1 => 2
  | _ => 4

/-- Cell rows of a sub-array. -/
def subRows (shape : Nat) : Nat := 256 / subArrays shape

/-- Elements per cell, E (Table 5.2). -/
def meE (fmt : Nat) : Nat := if fmt ≤ 1 then 1 else if fmt = 8 ∨ fmt = 0xA then 4 else 2

/-- Class of a format: A to F as 0 to 5 (Table 5.2). -/
def meClass (fmt : Nat) : Nat :=
  if fmt ≤ 1 then 0 else if fmt ≤ 3 then 1 else if fmt ≤ 7 then 2 else if fmt = 8 then 3 else if fmt = 9 then 4 else 5

/-- Classes C and D have block scales. -/
def meScaled (fmt : Nat) : Bool := meClass fmt == 2 || meClass fmt == 3

/-- Classes E and F are integers. -/
def meInt (fmt : Nat) : Bool := decide (4 ≤ meClass fmt)

/-- The largest KBLK of a format in a shape (Table 5.3). -/
def maxKblk (fmt shape : Nat) : Nat := 8 * meE fmt / subArrays shape

/-! ## Encoding checks (R76, R157, R158) -/

/-- MSHAPE. -/
def mshapeBad (e : Entry) : Bool := e.h.mod != 0 || fld e.b 63 62 == 3 || fld e.b 61 0 != 0

/-- SLOAD, in the present shape. -/
def sloadBad (shape : Nat) (e : Entry) : Bool :=
  let fmt := fld e.b 61 58
  let kb := fld e.b 57 52
  e.h.mod != 0 || decide (0xA < fmt) || decide (subArrays shape ≤ fld e.b 63 62) || kb == 0 || decide (maxKblk fmt shape < kb)
    || (fld e.b 46 42 != 0 && !meScaled fmt) || fld e.b 41 0 != 0

/-- IFILL. -/
def ifillBad (e : Entry) : Bool :=
  let cf := fld e.b 62 56
  let cc := fld e.b 55 48
  let rf := fld e.b 47 40
  let rc := fld e.b 39 31
  let fmt := fld e.b 30 27
  e.h.mod != 0 || decide (0xA < fmt) || cc == 0 || rc == 0 || decide (128 < cf + cc) || decide (256 < rf + rc)
    || (fld e.b 26 26 == 1 && meE fmt == 4) || (fld e.b 15 11 != 0 && !meScaled fmt) || fld e.b 10 0 != 0
    || (meScaled fmt && (rf % (32 / meE fmt) != 0 || rc % (32 / meE fmt) != 0))

/-- MMUL, in the present shape. -/
def mmulBad (shape : Nat) (e : Entry) : Bool :=
  let fmt := fld e.b 43 40
  let wide := bitOf e.h.mod.toNat 0
  let sm := fld e.b 47 44
  decide (1 < e.h.mod.toNat) || decide (0xA < fmt) || fld e.b 55 48 == 0 || decide (128 < fld e.b 62 56 + fld e.b 55 48)
    || sm == 0 || decide (2 ^ subArrays shape ≤ sm) || (wide && !meInt fmt) || (!wide && fld e.b 37 32 != 0)
    || fld e.b 9 0 != 0

/-- ACCST. -/
def accstBad (e : Entry) : Bool :=
  let rc := fld e.b 52 41
  decide (1 < e.h.mod.toNat) || rc == 0 || decide ((if bitOf e.h.mod.toNat 0 then 1024 else 2048) < rc) || fld e.b 30 0 != 0

/-! ## Checks on values and rows, made at the head of the queue for an instruction that is not null (R76, R78, R158) -/

/-- SLOAD: an address that is no multiple of 64. -/
def sloadValueBad (e : Entry) : Bool :=
  (e.reg 51 47).toNat % 64 != 0 || (meScaled (fld e.b 61 58) && (e.reg 46 42).toNat % 64 != 0)

/-- IFILL: an address or the stride is no multiple of 64. -/
def ifillValueBad (e : Entry) : Bool :=
  (e.reg 25 21).toNat % 64 != 0 || (e.reg 20 16).toNat % 64 != 0
    || (meScaled (fld e.b 30 27) && (e.reg 15 11).toNat % 64 != 0)

/-- Sub-arrays that an MMUL names. -/
def mmulSubs (e : Entry) : List Nat := (List.range 4).filter fun q => bitOf (fld e.b 47 44) q

/-- ACC rows of the mode of an instruction (R119). -/
def accRows (e : Entry) : Nat := if bitOf e.h.mod.toNat 0 then 1024 else 2048

/-- MMUL: ACC rows out of range (R119). -/
def mmulRowsBad (e : Entry) : Bool :=
  (mmulSubs e).any fun q => decide (accRows e < fld e.b 31 21 + q * fld e.b 20 10 + fld e.b 55 48)

/-- ACCST: ACC rows out of range, an address or stride that is no multiple of 64, or a stride below the row size (R119,
R153). -/
def accstValueBad (e : Entry) : Bool :=
  let rb := (e.reg 35 31).toNat
  decide (accRows e < fld e.b 63 53 + fld e.b 52 41) || (e.reg 40 36).toNat % 64 != 0 || rb % 64 != 0
    || decide (rb < if bitOf e.h.mod.toNat 0 then 256 else 128)

/-! ## Changes of the matrix engine -/

/-- The matrix engine of a core changed. -/
def CoreSt.modMe (c : CoreSt) (f : MeSt → MeSt) : CoreSt := { c with me := f c.me }

/-- ME_CNT_k raised. -/
def MeSt.bump (m : MeSt) (k n : Nat) : MeSt := { m with cnt := bumpBy m.cnt k n }

/-- MSHAPE begins, takes effect and is done (R137). ME_CNT_12 counts one to the shape in force too (Table 5.19 says "shape
changes"; DESIGN CHOICE, assumption 40). -/
def State.beginMshape (s : State) (c : Nat) (e : Entry) : State :=
  s.modCore c fun k => (k.modMe fun m =>
    ({ m with
      shape := fld e.b 63 62
      active := Vector.replicate 4 {}
      shadow := Vector.replicate 4 {} }).bump 12 1).launch 0 { e := e, done := true }

/-- SLOAD begins: its shadow set becomes LOADING, with the tile and scales read from the Skillet (R145, R146). -/
def State.beginSload (s : State) (c : Nat) (e : Entry) : State :=
  let fmt := fld e.b 61 58
  let kb := fld e.b 57 52
  let ra := (e.reg 51 47).toNat
  let rb := (e.reg 46 42).toNat
  let len := kb * 32 * 32 * fmtBits fmt / 8
  let sc := if meScaled fmt then kb * 32 else 0
  if outOfSkillet ra len then s.raiseFault c 1 0x15 e.pc (.skillet ra)
  else if sc ≠ 0 ∧ outOfSkillet rb sc then s.raiseFault c 1 0x15 e.pc (.skillet rb)
  else
    s.modCore c fun k =>
      let set : StatSet := { st := .loading, fmt := fmt, kblk := kb, tile := k.skillet.readN ra len, scales := k.skillet.readN rb sc }
      (k.modMe fun m => ({ m with shadow := vset m.shadow (fld e.b 63 62) set }).bump 5
        (kb * 32 / meE fmt + (if meScaled fmt then ceilDiv kb 2 else 0))).launch 0 { e := e }

/-- Bytes of word (r, c) of an input buffer (R113). -/
def bufAddr (r c : Nat) : Nat := 256 * c + r

/-- One buffer word is at byte 2 · bufAddr. -/
def wordAddr (r c : Nat) : Nat := 2 * bufAddr r c

/-- Rows of a transposed fill that are written in pairs: P of Table 5.6. -/
def fillPairs (rf rc : Nat) : Nat := ((List.range rc).filter fun i => decide (rf + i < 128) && decide (rf + i + 128 < rf + rc)).length

/-- Cycles of an IFILL (Table 5.6). -/
def fillCycles (e : Entry) : Nat :=
  let cc := fld e.b 55 48
  let rf := fld e.b 47 40
  let rc := fld e.b 39 31
  let fmt := fld e.b 30 27
  let base := if fld e.b 26 26 = 0 then cc else (if meE fmt = 1 then 1 else 2) * (rc - fillPairs rf rc)
  base + (if meScaled fmt then ceilDiv (cc * (rc * meE fmt / 32)) 512 else 0)

/-- The elements of an IFILL put into a buffer from the Skillet (R148). -/
def fillData (e : Entry) (skl buf : Mem) : Mem :=
  let cf := fld e.b 62 56
  let cc := fld e.b 55 48
  let rf := fld e.b 47 40
  let rc := fld e.b 39 31
  let ra := (e.reg 25 21).toNat
  let rb := (e.reg 20 16).toNat
  if fld e.b 26 26 = 0 then
    (List.range cc).foldl (fun b c => b.writeN (wordAddr rf (cf + c)) (skl.readN (ra + c * rb) (2 * rc))) buf
  else if meE (fld e.b 30 27) = 1 then
    (List.range rc).foldl (fun b j => (List.range cc).foldl (fun b c =>
      b.writeN (wordAddr (rf + j) (cf + c)) (skl.readN (ra + j * rb + 2 * c) 2)) b) buf
  else
    (List.range (2 * rc)).foldl (fun b j => (List.range cc).foldl (fun b c =>
      b.write (wordAddr (rf + j / 2) (cf + c) + j % 2) (skl.read (ra + j * rb + c))) b) buf

/-- The scales of an IFILL put into a buffer's scale side (R149). -/
def fillScales (e : Entry) (skl sc : Mem) : Mem :=
  let fmt := fld e.b 30 27
  let sb := fld e.b 39 31 * meE fmt / 32
  let b0 := fld e.b 47 40 * meE fmt / 32
  let rcA := (e.reg 15 11).toNat
  if meScaled fmt then
    (List.range (fld e.b 55 48)).foldl (fun m c =>
      m.writeN (32 * (fld e.b 62 56 + c) + b0) (skl.readN (rcA + c * sb) sb)) sc
  else sc

/-- IFILL begins (R148, R149). -/
def State.beginIfill (s : State) (c : Nat) (e : Entry) : State :=
  let cc := fld e.b 55 48
  let rc := fld e.b 39 31
  let fmt := fld e.b 30 27
  let ra := (e.reg 25 21).toNat
  let rb := (e.reg 20 16).toNat
  let sa := (e.reg 15 11).toNat
  let sc := if meScaled fmt then cc * (rc * meE fmt / 32) else 0
  let span := if fld e.b 26 26 = 0 then (cc - 1) * rb + 2 * rc
    else if meE fmt = 1 then (rc - 1) * rb + 2 * cc else (2 * rc - 1) * rb + cc
  if outOfSkillet ra span then s.raiseFault c 1 0x15 e.pc (.skillet ra)
  else if sc ≠ 0 ∧ outOfSkillet sa sc then s.raiseFault c 1 0x15 e.pc (.skillet sa)
  else
    let i := fld e.b 63 63
    s.modCore c fun k => (k.modMe fun m =>
      ({ m with
        buf := vmod m.buf i (fillData e k.skillet)
        scale := vmod m.scale i (fillScales e k.skillet) }).bump 7 (fillCycles e)).launch 0 { e := e }

/-! ## MMUL (R141 to R143, R147, R150) -/

/-- Element `k` of a K-vector: of word row base + k div E, lane k mod E (R113, R138). -/
def streamElem (buf : Mem) (fmt base col k : Nat) : FVal :=
  let E := meE fmt
  let w := buf.readLE (wordAddr (base + k / E) col) 2
  elemValue fmt (w / 2 ^ (fmtBits fmt * (k % E)) % 2 ^ fmtBits fmt)

/-- Element (k, n) of a stationary tile (R145). -/
def tileElem (t : StatSet) (k n : Nat) : FVal :=
  let w := fmtBits t.fmt
  if w = 4 then elemValue t.fmt ((t.tile.getD (16 * k + n / 2) 0).toNat / 16 ^ (n % 2) % 16)
  else elemValue t.fmt (leAt t.tile ((32 * k + n) * (w / 8)) (w / 8))

/-- An FP32 sum, rounded nearest-even (R141). -/
def add32 (a b : FVal) : FVal := binary32.round (a.add 0 b)

/-- The sum of a block of 32 products in the fixed tree (R141). -/
def blockSum (ps : List FVal) : FVal := redTree add32 6 ps

/-- One block of a column: products, tree and scaling (R141, R142). -/
def blockOf (buf sc : Mem) (fmt base col n b : Nat) (t : StatSet) : FVal :=
  let ps := (List.range 32).map fun i =>
    binary32.round ((streamElem buf fmt base col (32 * b + i)).mul (tileElem t (32 * b + i) n))
  let sum := blockSum ps
  if meScaled fmt then
    let xs := (sc.read (32 * col + base * meE fmt / 32 + b)).toNat
    let xt := (t.scales.getD (32 * b + n) 0).toNat
    if xs = 255 ∨ xt = 255 then .nan else binary32.round (sum.scale ((xs : Int) + xt - 254))
  else sum

/-- The column sum of a floating product (R141). -/
def colSum (buf sc : Mem) (fmt base col n : Nat) (t : StatSet) : FVal :=
  ((List.range (t.kblk - 1)).foldl (fun a b => add32 a (blockOf buf sc fmt base col n (b + 1) t)) (blockOf buf sc fmt base col n 0 t))

/-- The exact column sum of an integer product (R143). -/
def colSumInt (buf : Mem) (fmt base col n : Nat) (t : StatSet) : Int :=
  (List.range (32 * t.kblk)).foldl (fun a k =>
    match (streamElem buf fmt base col k).mul (tileElem t k n) with
    | .fin neg m _ => if neg then a - m else a + m
    | _ => a) 0

/-- No input of an element is NaN or infinite: a result that is infinite was rounded to it. -/
def finiteInputs (buf : Mem) (fmt base col n : Nat) (t : StatSet) (old : FVal) : Bool :=
  !old.special && (List.range (32 * t.kblk)).all fun k =>
    !(streamElem buf fmt base col k).special && !(tileElem t k n).special

/-- Where an MMUL is: the accumulator, results rounded to infinity and NaN results, and an overflow (R143). -/
structure MmSt where
  acc : Mem
  inf : Nat := 0
  nan : Nat := 0
  past : Bool := false
deriving Repr

/-- One element of an output row: column `n` of ACC row `row` from column `col` of the buffer (R141, R143). -/
def mmElem (e : Entry) (buf sc : Mem) (base col row : Nat) (t : StatSet) (x : MmSt) (n : Nat) : MmSt :=
  let fmt := fld e.b 43 40
  let accum := fld e.b 38 38 = 1
  if meInt fmt then
    let sum := colSumInt buf fmt base col n t
    if bitOf e.h.mod.toNat 0 then
      let v := sum * 2 ^ fld e.b 37 32
      let r := if accum then accWide x.acc row n + v else v
      let ok := fun (i : Int) => decide (-(2 ^ 63) ≤ i) && decide (i < 2 ^ 63)
      if ok v && ok r then
        let w := (r % 2 ^ 64).toNat
        { x with acc := (x.acc.writeLE (256 * row + 4 * n) 4 (w % 2 ^ 32)).writeLE (256 * row + 128 + 4 * n) 4 (w / 2 ^ 32) }
      else { x with past := true }
    else
      let r := if accum then sextN 32 (accWord x.acc row n) + sum else sum
      if -(2 ^ 31) ≤ r ∧ r < 2 ^ 31 then { x with acc := x.acc.writeLE (128 * row + 4 * n) 4 (r % 2 ^ 32).toNat }
      else { x with past := true }
  else
    let old := if accum then binary32.decode (accWord x.acc row n) else FVal.zero
    let sum := colSum buf sc fmt base col n t
    let r := if accum then add32 old sum else sum
    let c := binary32.convert 0 0 false false r
    let toInf := match r with
      | .inf _ => finiteInputs buf fmt base col n t old
      | _ => false
    { x with acc := x.acc.writeLE (128 * row + 4 * n) 4 c.code, inf := x.inf + b2n toInf, nan := x.nan + b2n c.isNan }

/-- The output rows of an MMUL: columns in ascending order, in each the sub-arrays of SMASK (R150). -/
def mmRows (e : Entry) (m : MeSt) (act : Vector StatSet 4) : MmSt :=
  let cf := fld e.b 62 56
  let buf := vget m.buf (fld e.b 63 63)
  let sc := vget m.scale (fld e.b 63 63)
  let subs := mmulSubs e
  (List.range (fld e.b 55 48)).foldl (fun x c =>
    subs.foldl (fun x q =>
      (List.range 32).foldl
        (mmElem e buf sc (subRows m.shape * q) (cf + c) (fld e.b 31 21 + q * fld e.b 20 10 + c) (vget act q)) x) x)
    { acc := m.acc }

/-- The sets after the Spatula has exchanged those of the named sub-arrays (R147). -/
def spatula (e : Entry) (m : MeSt) : Vector StatSet 4 × Vector StatSet 4 :=
  if fld e.b 39 39 = 0 then (m.active, m.shadow)
  else
    let sw := fun q => bitOf (fld e.b 47 44) q
    (vmapIdx m.active fun q x => if sw q then vget m.shadow q else x,
     vmapIdx m.shadow fun q x => if sw q then vget m.active q else x)

/-- MMUL begins (R147, R150). -/
def State.beginMmul (s : State) (c : Nat) (e : Entry) : State :=
  let m := (s.core c).me
  let subs := mmulSubs e
  let (act, sha) := spatula e m
  let fmt := fld e.b 43 40
  let cols := fld e.b 55 48
  if subs.any fun q => (vget act q).st != .loaded then s.raiseFault c 1 0x46 e.pc .none
  else if subs.any fun q => meClass (vget act q).fmt != meClass fmt then s.raiseFault c 1 0x48 e.pc .none
  else
    let x := mmRows e m act
    let swaps := if fld e.b 39 39 = 0 then 0 else subs.length
    let s := s.modCore c fun k => (k.modMe fun m =>
      ((((({ m with active := act, shadow := sha, acc := x.acc }).bump 1 cols).bump 2 (cols * subs.length)).bump 3 swaps).bump 10
        x.inf).bump 11 x.nan).launch 0 { e := e, left := cols }
    if x.past then s.raiseFault c 1 0x47 e.pc .none else s

/-- ACCST begins: ACC rows are copied to the Skillet (R153). -/
def State.beginAccst (s : State) (c : Nat) (e : Entry) : State :=
  let wide := bitOf e.h.mod.toNat 0
  let rf := fld e.b 63 53
  let rc := fld e.b 52 41
  let ra := (e.reg 40 36).toNat
  let rb := (e.reg 35 31).toNat
  let sz := if wide then 256 else 128
  if outOfSkillet ra ((rc - 1) * rb + sz) then s.raiseFault c 1 0x15 e.pc (.skillet ra)
  else if ra < (s.core c).progEnd then s.raiseFault c 1 0x16 e.pc (.skillet ra)
  else
    s.modCore c fun k =>
      let acc := k.me.acc
      let row := fun r =>
        if wide then (List.range 32).flatMap fun n => leBytes 8 (accWide acc r n % 2 ^ 64).toNat
        else acc.readN (128 * r) 128
      let skl := (List.range rc).foldl (fun (m : Mem) i => m.writeN (ra + i * rb) (row (rf + i))) k.skillet
      ({ k with skillet := skl }.modMe fun m => m.bump 8 (if wide then 2 * rc else rc)).launch 0 { e := e }

/-! ## Waiting to begin, and in execution (R116, R137, R146, R147, R150 to R152) -/

/-- ME instructions in execution that are not null and whose work has not ended, oldest first. -/
def CoreSt.meWork (c : CoreSt) : List Flight := (vget c.flights 0).filter fun f => !f.done && !f.e.null

/-- K-vectors of an MMUL still enter the array. -/
def Flight.enters (f : Flight) : Bool := f.e.op == 0x04 && decide (0 < f.left)

/-- Why an ME instruction at the head cannot begin, as the status of Table 17.3 that counts for it: the unit that it needs
is at work (0xC), a fill (0) or a load (1) that it needs is in progress, or it waits for the array to be empty (0xD). -/
def CoreSt.meHeld (c : CoreSt) (e : Entry) : Option Nat :=
  let fl := c.meWork
  let runs := fun op => fl.any fun f => f.e.op == op
  match e.op with
  | 0x01 => if runs 0x02 ∨ ((vget c.flights 0).any fun f => f.e.op == 0x04 && !f.e.null) = true then some 0xD else none
  | 0x02 => if runs 0x02 ∨ (vget c.me.shadow (fld e.b 63 62)).st = .loading then some 0xC else none
  | 0x03 =>
    if runs 0x03 ∨ (fl.any fun f => f.enters && fld f.e.b 63 63 == fld e.b 63 63) = true then some 0xC else none
  | 0x04 =>
    if fl.any Flight.enters then some 0xC
    else if fl.any fun f => f.e.op == 0x03 && fld f.e.b 63 63 == fld e.b 63 63 then some 0
    else if fld e.b 39 39 = 1 ∧ ((mmulSubs e).any fun q => (vget c.me.shadow q).st == .loading) = true then some 1
    else none
  | _ => if runs 0x05 then some 0xC else none

/-- ACC rows that an MMUL updates or an ACCST reads: the first and the number, of normal rows (R117, R150, R153). -/
def Flight.accRanges (f : Flight) : List (Nat × Nat) :=
  let k := if bitOf f.e.h.mod.toNat 0 then 2 else 1
  if f.e.op = 0x04 then
    (mmulSubs f.e).map fun q => (k * (fld f.e.b 31 21 + q * fld f.e.b 20 10), k * fld f.e.b 55 48)
  else [(k * fld f.e.b 63 53, k * fld f.e.b 52 41)]

/-- An ACCST in execution waits for an earlier MMUL to update a row that it reads (R152). -/
def accstWaits : List Flight → Bool
  | [] => false
  | f :: fs =>
    (f.e.op == 0x04 && fs.any fun g => g.e.op == 0x05
      && f.accRanges.any fun a => g.accRanges.any fun b => rangesMeet a.1 a.2 b.1 b.2) || accstWaits fs

/-- The fill unit, the loader or the store unit moves data (R155). -/
def CoreSt.meMoves (c : CoreSt) : Bool :=
  let fl := c.meWork
  fl.any fun f => f.e.op == 0x02 || f.e.op == 0x03 || (f.e.op == 0x05 && !accstWaits fl)

/-- The work of an ME instruction has ended: a load leaves its shadow set LOADED (R146). -/
def CoreSt.meDone (c : CoreSt) (f : Flight) : CoreSt :=
  if f.e.op = 0x02 ∧ !f.e.null then
    c.modMe fun m => { m with shadow := vmod m.shadow (fld f.e.b 63 62) fun x => { x with st := .loaded } }
  else c

end Sys2Proof.Machine
end

