-- ==== Sys2Proof/Machine/Sequencer.lean ====
section
/-!
DEFINITION. The sequencer: instruction words, encoding checks, the operations of Table 3.10, races at dispatch and
their joins (R69 to R103).
-/

namespace Sys2Proof.Machine

open Sys2Proof

/-! ## Instruction words (R75, Table 3.3) -/

/-- The header bits of an instruction. -/
def Hdr.bits (h : Hdr) (q op : Nat) : Nat :=
  putBits q 3 61 + putBits op 8 53 + putBits (b2n h.pneg) 1 52 + putBits h.pred.toNat 3 49 + putBits h.wtok.toNat 6 43
    + putBits h.wval.toNat 4 39 + putBits h.stok.toNat 6 33 + putBits h.sval.toNat 4 29 + putBits h.nb.toNat 24 5
    + putBits h.mod.toNat 5 0

/-- The header fields of a word's upper half. -/
def hdrOf (w : Nat) : Hdr :=
  { pneg := bitOf w 52, pred := .ofNat 3 (bitsOf w 51 49), wtok := .ofNat 6 (bitsOf w 48 43)
    wval := .ofNat 4 (bitsOf w 42 39), stok := .ofNat 6 (bitsOf w 38 33), sval := .ofNat 4 (bitsOf w 32 29)
    nb := .ofNat 24 (bitsOf w 28 5), mod := .ofNat 5 (bitsOf w 4 0) }

/-- The 128-bit word of an instruction. -/
def instWord (q op : Nat) (h : Hdr) (b : Word) : Nat := h.bits q op * 2 ^ 64 + b.toNat

/-! ## Registers (R69, R70) -/

/-- A write to a general register; g0 discards it (R70). An earlier result still due for the register is no longer read. -/
def CoreSt.setG (c : CoreSt) (r : Nat) (v : Word) : CoreSt :=
  if r = 0 then c else { c with g := vset c.g r v, late := c.late.filter fun x => x.1 != r }

/-- A general register. -/
def CoreSt.getG (c : CoreSt) (r : Nat) : Word := if r = 0 then 0 else vget c.g r

/-- A write to a predicate; p0 discards it (R70). -/
def CoreSt.setP (c : CoreSt) (r : Nat) (v : Bool) : CoreSt := if r = 0 then c else { c with p := vset c.p r v }

/-- A predicate; p0 reads 1 (R70). -/
def CoreSt.getP (c : CoreSt) (r : Nat) : Bool := r == 0 || vget c.p r

/-- The registers as an instruction reads them at dispatch (R77). -/
def CoreSt.readRegs (c : CoreSt) : Vector Word 32 := vset c.g 0 0

/-! ## Encoding checks (R76, R99 to R101) -/

/-- Body bits that the format of Table 3.9 does not define, by opcode; `none` for an opcode that is undefined. -/
def seqSpare (op : Nat) (b : Word) : Option Nat :=
  let a := some (fld b 48 0)
  let i := some (fld b 53 32)
  let p := some (fld b 63 62 + fld b 36 32)
  let t := some (fld b 58 54 + fld b 47 16)
  let bf := some (fld b 63 59 + fld b 53 32)
  let x := some (fld b 61 59 + fld b 53 48)
  match op with
  | 0x00 => some (fld b 63 0)
  | 0x01 => a | 0x02 => a | 0x03 => a | 0x04 => a | 0x05 => a | 0x06 => a | 0x07 => a | 0x08 => a | 0x09 => a
  | 0x0A => a | 0x0B => a
  | 0x10 => i | 0x11 => i | 0x12 => i | 0x13 => i | 0x15 => i
  | 0x14 => some (fld b 58 48)
  | 0x20 => p | 0x21 => p | 0x22 => p | 0x23 => p
  | 0x30 => t | 0x31 => t | 0x32 => t | 0x33 => t
  | 0x40 => bf | 0x41 => bf | 0x42 => bf | 0x43 => bf | 0x44 => bf
  | 0x48 => x | 0x49 => x
  | 0x50 => i | 0x51 => i | 0x52 => i
  | 0x60 => some (fld b 63 7 + fld b 0 0)
  | 0x70 => some (fld b 63 0)
  | 0x71 => i
  | _ => none

/-- Field values that Table 3.10, R100 and R101 exclude. -/
def seqFieldBad (op : Nat) (b : Word) : Bool :=
  match op with
  | 0x12 => fld b 31 6 != 0
  | 0x13 => fld b 31 6 != 0
  | 0x15 => fld b 31 16 != 0
  | 0x20 => decide (5 < fld b 47 45)
  | 0x21 => decide (5 < fld b 47 45)
  | 0x23 => fld b 31 24 != 0
  | 0x41 => fld b 31 0 != 0
  | 0x43 => fld b 58 54 != 0 || fld b 31 0 != 0
  | 0x48 => fld b 47 24 == 0
  | 0x49 => fld b 58 54 != 0 || fld b 47 0 != 0
  | 0x52 => fld b 58 54 != 0 || decide (7 < fld b 31 0)
  | _ => false

/-- A sequencer instruction is illegal (R76). -/
def seqBad (e : Entry) : Bool :=
  match seqSpare e.op e.b with
  | none => true
  | some n => n != 0 || e.h.mod != 0 || seqFieldBad e.op e.b

/-! ## Opcodes that the queues define, and undefined words (R75, R76) -/

/-- An opcode that a queue defines (Tables 3.10, 4.6, 5.11, 6.8 and 7.6). -/
def opDefined (q op : Nat) : Bool :=
  match q with
  | 0 => (seqSpare op 0).isSome
  | 1 => decide (1 ≤ op) && decide (op ≤ 5)
  | 2 => [0x01, 0x02, 0x03, 0x04, 0x05, 0x06, 0x07, 0x08, 0x09, 0x0A, 0x10, 0x20, 0x21, 0x30, 0x31, 0x38, 0x39, 0x3F].contains op
  | 3 => op == 1
  | 4 => op == 1 || op == 2
  | 5 => decide (1 ≤ op) && decide (op ≤ 5)
  | _ => false

/-- QUEUE, OP, the header and the body of a 128-bit word (Table 3.3). -/
def wordQueue (w : Nat) : Nat := bitsOf w 127 125
def wordOp (w : Nat) : Nat := bitsOf w 124 117
def wordHdr (w : Nat) : Hdr := hdrOf (w / 2 ^ 64)
def wordBody (w : Nat) : Word := toW w

/-! ## Results that are not ready (R77, R85, Table 3.5) -/

/-- The general registers that an instruction reads at dispatch (R77, Tables 3.9, 4.7, 5.12, 6.9 and 7.7). -/
def regsRead (q op : Nat) (b : Word) : List Nat :=
  let f := fun hi lo => fld b hi lo
  match q with
  | 0 =>
    if op = 0x14 ∨ op = 0x22 ∨ op = 0x23 ∨ op = 0x52 then []
    else if op < 0x0C ∨ op = 0x20 then [f 58 54, f 53 49]
    else if op = 0x51 then [f 58 54, f 63 59]
    else if op < 0x30 ∨ [0x41, 0x44, 0x48, 0x50].contains op then [f 58 54]
    else []
  | 1 => if op = 2 then [f 51 47, f 46 42] else if op = 3 then [f 25 21, f 20 16, f 15 11] else if op = 5 then [f 40 36, f 35 31] else []
  | 2 => [f 63 59, f 58 54, f 53 49, f 48 44, f 43 39, f 38 34]
  | 3 => [f 63 59, f 58 54]
  | 4 => [f 63 59, f 58 54, f 53 49, f 48 44, f 43 39, f 38 34]
  | _ =>
    if op = 1 then [f 52 48, f 47 43] else if op = 3 then [f 52 48, f 47 43, f 42 38]
    else if op = 4 then [f 52 48, f 47 43, f 42 38, f 37 33] else []

/-- `k` cycles pass for the results that are not ready. -/
def ageLate (k : Nat) (l : List (Nat × Nat)) : List (Nat × Nat) :=
  (l.map fun x => (x.1, x.2 - k)).filter fun x => x.2 != 0

/-- The sequencer holds the instruction at the PC until every register that it reads is ready, and counts the cycles
(R85, SEQ_CNT_5); it issues in the cycle after. -/
def CoreSt.awaitResults (c : CoreSt) : CoreSt :=
  let w := c.skillet.readLE c.pc 16
  let rs := regsRead (wordQueue w) (wordOp w) (wordBody w)
  let k := maxL 0 ((c.late.filter fun x => rs.contains x.1).map (·.2))
  { c with seqCnt := bumpBy c.seqCnt 5 k, late := ageLate (k + 1) c.late }

/-- The result of an operation for register `r` is usable after 1 cycle, after 3 for MUL, and after 4 and the cycles of
bank conflicts, which are free, for LD (Table 3.5). -/
def CoreSt.resultIn (c : CoreSt) (n op r : Nat) : CoreSt :=
  if r = 0 then c
  else if op = 0x03 then { c with late := (r, 2) :: c.late }
  else if op = 0x50 then { c with late := (r, 3 + Config.cycles n c.draws) :: c.late, draws := c.draws + 1 }
  else c

/-- The next instruction is at `pc`; the target of a taken branch dispatches one cycle later than the instruction behind
it would (Table 3.5). -/
def CoreSt.goTo (c : CoreSt) (pc : Nat) : CoreSt :=
  { c with pc := pc, late := if pc = c.pc + 16 then c.late else ageLate 1 c.late }

/-! ## Operations (R99 to R101) -/

/-- Register operations of format A. -/
def aluA (op : Nat) (a b : Word) : Word :=
  let sh := b.toNat % 64
  match op with
  | 0x01 => a + b
  | 0x02 => a - b
  | 0x03 => a * b
  | 0x04 => a &&& b
  | 0x05 => a ||| b
  | 0x06 => a ^^^ b
  | 0x07 => a <<< sh
  | 0x08 => a >>> sh
  | 0x09 => a.sshiftRight sh
  | 0x0A => if b.slt a then b else a
  | _ => if a.slt b then b else a

/-- A field of `w` bits of the body, sign-extended to 64 bits. -/
def sextF (b : Word) (hi lo : Nat) : Word := intW (sextN (hi + 1 - lo) (fld b hi lo))

/-- Immediate operations of formats I and W. -/
def aluI (op : Nat) (a b : Word) : Word :=
  match op with
  | 0x10 => a + sextF b 31 0
  | 0x11 => a &&& toW (fld b 31 0)
  | 0x12 => a <<< fld b 5 0
  | 0x13 => a >>> fld b 5 0
  | 0x14 => sextF b 47 0
  | _ => toW (fld a 47 0 + fld b 15 0 * 2 ^ 48)

/-- The comparisons of Table 3.11. -/
def condHolds (cond : Nat) (a b : Word) : Bool :=
  match cond with
  | 0 => a == b
  | 1 => a != b
  | 2 => a.slt b
  | 3 => !a.slt b
  | 4 => decide (a.toNat < b.toNat)
  | _ => decide (b.toNat ≤ a.toNat)

/-- LOP of PLOG. -/
def logP (lop : Nat) (a b : Bool) : Bool :=
  match lop with
  | 0 => a && b
  | 1 => a || b
  | 2 => a != b
  | _ => a && !b

/-- PC + 16 × an offset, as 64-bit arithmetic (R86). -/
def relPc (pc : Nat) (off : Int) : Nat := (((pc : Int) + 16 * off) % 2 ^ 64).toNat

/-- The special values of Table 3.12. -/
def State.special (s : State) (n i pc : Nat) : Nat :=
  let c := s.core n
  match i with
  | 0 => n
  | 1 => s.cfg.pkgId
  | 2 => s.now
  | 3 => c.beatBase
  | 4 => c.part
  | 5 => 0x100000
  | 6 => c.paramLen
  | _ => pc

/-! ## Waiting of operations (R84, R90, R99) -/

/-- Work of queue `q` that has not completed: queued, in execution, or in flight in the stream engines (R84). -/
def CoreSt.queueBusy (c : CoreSt) (q : Nat) : Bool :=
  !(vget c.queues (q - 1)).isEmpty || !(vget c.flights (q - 1)).isEmpty
    || (q == 3 && !c.sm.xfers.isEmpty) || (q == 4 && !c.sm.cols.isEmpty)

/-- A remote write that the core's Exchange has sent is not acknowledged. -/
def CoreSt.remotePending (c : CoreSt) : Bool := !c.puts.isEmpty

/-- Everything of the core has completed (R97). -/
def CoreSt.drained (c : CoreSt) : Bool :=
  c.cur == none && [1, 2, 3, 4, 5].all (fun q => !c.queueBusy q) && c.puts.isEmpty

/-- FENCE is satisfied (R84). -/
def CoreSt.fenceOk (c : CoreSt) (b : Word) : Bool :=
  [1, 2, 3, 4, 5].all (fun q => fld b q q == 0 || !c.queueBusy q) && (fld b 6 6 == 0 || !c.remotePending)

/-- Depth of queue `q` (Table 3.4). -/
def queueDepth (q : Nat) : Nat := if q = 3 ∨ q = 5 then 32 else 16

/-- A queue has room (R79). -/
def CoreSt.room (c : CoreSt) (q : Nat) : Bool := decide ((vget c.queues (q - 1)).length < queueDepth q)

/-- The operation of a sequencer instruction waits: TWAIT, RJOIN, FENCE, and RACE for room in the Ladle queue. -/
def CoreSt.opWaits (c : CoreSt) (e : Entry) : Bool :=
  match e.op with
  | 0x33 => decide (vget c.t (fld e.b 53 48) < fld e.b 15 0)
  | 0x48 => (vget c.races (fld e.b 63 62)).st == .free && !c.room 3
  | 0x49 => (vget c.races (fld e.b 63 62)).st == .pending
  | 0x60 => !c.fenceOk e.b
  | _ => false

/-! ## Taking effect -/

/-- A sequencer instruction has taken effect: the PC moves on and the header signal acts (R81). -/
def State.seqDone (s : State) (n : Nat) (e : Entry) (pc : Nat) (sig : Bool) : State :=
  let s := s.modCore n fun c => { c.goTo pc with cur := none, progress := true }
  if sig then s.signal n e.h.stok.toNat e.h.sval.toNat 0 e.pc else s

/-- A register result. -/
def State.seqReg (s : State) (n : Nat) (e : Entry) (v : Word) : State :=
  (s.modCore n fun c => (c.setG (fld e.b 63 59) v).resultIn n e.op (fld e.b 63 59)).seqDone n e (e.pc + 16) true

/-- A predicate result. -/
def State.seqPred (s : State) (n : Nat) (e : Entry) (v : Bool) : State :=
  (s.modCore n fun c => c.setP (fld e.b 61 59) v).seqDone n e (e.pc + 16) true

/-- A token result (R82). -/
def State.seqTok (s : State) (n : Nat) (e : Entry) (v : Nat) : State :=
  if 65535 < v then s.raiseFault n 0 0x4A e.pc .none
  else (s.modCore n fun c => { c with t := vset c.t (fld e.b 53 48) v }).seqDone n e (e.pc + 16) true

/-- The descriptor of a race is no plain fetch: 0x48 (R87). -/
def raceDescBad (b : List Byte) : Bool := (descOf b).dir || (descOf b).sig

/-- RACE takes effect (R87, R88): it takes its slot and places the fetch in the Ladle queue, or it is lost at
dispatch. -/
def State.seqRace (s : State) (n : Nat) (e : Entry) : State :=
  let c := s.core n
  let slot := fld e.b 63 62
  let a := (e.reg 58 54).toNat
  let dl := fld e.b 47 24
  if (vget c.races slot).st ≠ .free then s.raiseFault n 0 0x4B e.pc .none
  else if a % 64 ≠ 0 ∨ outOfSkillet a 64 then s.raiseFault n 0 0x15 e.pc (.skillet a)
  else if raceDescBad (c.skillet.readN a 64) then s.raiseFault n 0 0x48 e.pc .none
  else
    let r : RaceSlot :=
      { st := .pending, alt := relPc e.pc (sextN 24 (fld e.b 23 0)), dl := dl, stok := e.h.stok.toNat
        sval := e.h.sval.toNat }
    if c.beatBase + dl ≤ s.now then
      (s.modCore n fun c =>
        ({ c with races := vset c.races slot { r with st := .lost } }).seqBump 2 1).seqDone n e (e.pc + 16) false
    else
      let f : Entry := { e with q := 3, h := {}, race := some slot }
      (s.modCore n fun c =>
        { c with
          races := vset c.races slot r
          queues := vmod c.queues 2 fun l => l ++ [f] }).seqDone n e (e.pc + 16) false

/-- RJOIN takes effect (R90). -/
def State.seqRjoin (s : State) (n : Nat) (e : Entry) : State :=
  let slot := fld e.b 63 62
  let r := vget (s.core n).races slot
  match r.st with
  | .free => s.raiseFault n 0 0x4B e.pc .none
  | .lost => (s.modCore n fun c => c.setRace slot .free).seqDone n e r.alt true
  | _ => (s.modCore n fun c => c.setRace slot .free).seqDone n e (e.pc + 16) true

/-- A Skillet word of LD and ST: its address, when it is legal (Table 3.8). -/
def ldstAddr (e : Entry) : Option Nat :=
  let a := (e.reg 58 54 + sextF e.b 31 0).toNat
  if a % 8 = 0 ∧ a ≤ 0x7FFFF8 then some a else none

/-- LD takes effect. -/
def State.seqLd (s : State) (n : Nat) (e : Entry) : State :=
  match ldstAddr e with
  | none => s.raiseFault n 0 0x15 e.pc (.skillet (e.reg 58 54 + sextF e.b 31 0).toNat)
  | some a => s.seqReg n e (toW ((s.core n).skillet.readLE a 8))

/-- ST takes effect; the program region is not written (R73). -/
def State.seqSt (s : State) (n : Nat) (e : Entry) : State :=
  match ldstAddr e with
  | none => s.raiseFault n 0 0x15 e.pc (.skillet (e.reg 58 54 + sextF e.b 31 0).toNat)
  | some a =>
    if a < (s.core n).progEnd then s.raiseFault n 0 0x16 e.pc (.skillet a)
    else
      (s.modCore n fun c =>
        { c with skillet := c.skillet.writeLE a 8 (e.reg 63 59).toNat }).seqDone n e (e.pc + 16) true

/-- JR takes effect (R86, Table 3.8). -/
def State.seqJr (s : State) (n : Nat) (e : Entry) : State :=
  let a := (e.reg 58 54).toNat
  if a % 16 ≠ 0 then s.raiseFault n 0 0x15 e.pc (.skillet a) else s.seqDone n e a true

/-- CALL takes effect (R86). -/
def State.seqCall (s : State) (n : Nat) (e : Entry) : State :=
  if 16 ≤ (s.core n).calls.length then s.raiseFault n 0 0x49 e.pc .none
  else
    (s.modCore n fun c => { c with calls := (e.pc + 16) :: c.calls }).seqDone n e
      (relPc e.pc (sextN 32 (fld e.b 31 0))) true

/-- RET takes effect (R86). -/
def State.seqRet (s : State) (n : Nat) (e : Entry) : State :=
  match (s.core n).calls with
  | [] => s.raiseFault n 0 0x49 e.pc .none
  | a :: as => (s.modCore n fun c => { c with calls := as }).seqDone n e a true

/-- LOOP takes effect. -/
def State.seqLoop (s : State) (n : Nat) (e : Entry) : State :=
  let r := fld e.b 58 54
  let s := s.modCore n fun c => c.setG r (c.getG r - 1)
  let pc := if (s.core n).getG r = 0 then e.pc + 16 else relPc e.pc (sextN 32 (fld e.b 31 0))
  s.seqDone n e pc true

/-- END takes effect: DRAINING, and races that are still pending are lost (R91, R97). -/
def State.seqEnd (s : State) (n : Nat) (e : Entry) : State :=
  let s := (List.range 4).foldl (fun s k => s.loseRace n k 1) s
  (s.modCore n fun c => { c with st := .draining, races := Vector.replicate 4 {} }).seqDone n e (e.pc + 16) true

/-- A sequencer instruction whose predicate is 1 takes effect (Table 3.10). -/
def State.seqOp (s : State) (n : Nat) (e : Entry) : State :=
  let ra := e.reg 58 54
  match e.op with
  | 0x20 => s.seqPred n e (condHolds (fld e.b 47 45) ra (e.reg 53 49))
  | 0x21 => s.seqPred n e (condHolds (fld e.b 47 45) ra (sextF e.b 31 0))
  | 0x22 => s.seqPred n e (logP (fld e.b 38 37) ((s.core n).getP (fld e.b 44 42)) ((s.core n).getP (fld e.b 41 39)))
  | 0x23 => s.seqPred n e (decide ((s.core n).beatBase + fld e.b 23 0 ≤ s.now))
  | 0x30 => s.seqTok n e (fld e.b 15 0)
  | 0x31 => s.seqTok n e (vget (s.core n).t (fld e.b 53 48) + fld e.b 15 0)
  | 0x32 => s.seqReg n e (toW (vget (s.core n).t (fld e.b 53 48)))
  | 0x40 => s.seqDone n e (relPc e.pc (sextN 32 (fld e.b 31 0))) true
  | 0x41 => s.seqJr n e
  | 0x42 => s.seqCall n e
  | 0x43 => s.seqRet n e
  | 0x44 => s.seqLoop n e
  | 0x48 => s.seqRace n e
  | 0x49 => s.seqRjoin n e
  | 0x50 => s.seqLd n e
  | 0x51 => s.seqSt n e
  | 0x52 => s.seqReg n e (toW (s.special n (fld e.b 31 0) e.pc))
  | 0x70 => s.seqEnd n e
  | 0x71 => s.raiseFaultD n 0 0x4C e.pc .none (fld e.b 15 0)
  | 0x00 => s.seqDone n e (e.pc + 16) true
  | 0x33 => s.seqDone n e (e.pc + 16) true
  | 0x60 => s.seqDone n e (e.pc + 16) true
  | op =>
    if op < 0x0C then s.seqReg n e (aluA op ra (e.reg 53 49)) else s.seqReg n e (aluI op ra e.b)

end Sys2Proof.Machine
end

