-- ==== Sys2Proof/Machine/Settle.lean ====
section
/-!
DEFINITION. Dispatch and the heads of the queues: what a core begins as soon as its conditions hold, and what completes
in order (R76 to R84).
-/

namespace Sys2Proof.Machine

open Sys2Proof

/-! ## Heads of the queues (R76, R80) -/

/-- The encoding of an engine instruction is illegal, in a shape of the ME (R76). -/
def Entry.encodingBad (shape : Nat) (e : Entry) : Bool :=
  match e.q, e.op with
  | 1, 0x01 => mshapeBad e
  | 1, 0x02 => sloadBad shape e
  | 1, 0x03 => ifillBad e
  | 1, 0x04 => mmulBad shape e
  | 1, 0x05 => accstBad e
  | 2, 0x01 => arith2Bad e.ve
  | 2, 0x02 => arith2Bad e.ve
  | 2, 0x03 => arith2Bad e.ve
  | 2, 0x04 => fmaBad e.ve
  | 2, 0x05 => arith2Bad e.ve
  | 2, 0x06 => arith2Bad e.ve
  | 2, 0x07 => unaryBad e.ve
  | 2, 0x08 => bitBad e.ve
  | 2, 0x09 => cmpBad e.ve
  | 2, 0x0A => cvtBad e.ve
  | 2, 0x10 => reduceBad e.ve
  | 2, 0x20 => funcBad e.ve
  | 2, 0x21 => ftloadBad e.ve
  | 2, 0x30 => packBad e.ve
  | 2, 0x31 => packBad e.ve
  | 2, 0x38 => sliceBad e.ve
  | 2, 0x39 => combineBad e.ve
  | 2, 0x3F => vseedBad e.ve
  | 3, 0x01 => e.h.mod != 0 || fld e.b 53 0 != 0
  | 3, _ => e.race.isNone
  | 4, 0x01 => e.h.mod != 0 || fld e.b 30 0 != 0
  | 4, 0x02 => e.h.mod != 0 || fld e.b 30 0 != 0
  | 5, 0x01 => wopenBad e
  | 5, 0x02 => wcloseBad e
  | 5, 0x03 => grantBad e
  | 5, 0x04 => putBad e
  | 5, 0x05 => rdvBad e
  | _, _ => true

/-- A register value that an engine instruction names is out of range (R76, R131, R158, R193, R228). -/
def Entry.valueBad (e : Entry) : Bool :=
  match e.q, e.op with
  | 1, 0x02 => sloadValueBad e
  | 1, 0x03 => ifillValueBad e
  | 1, 0x04 => mmulRowsBad e
  | 1, 0x05 => accstValueBad e
  | 2, _ => e.veValueBad
  | 3, _ => e.race.isNone && xferValueBad e
  | 4, _ => colValueBad e
  | 5, 0x01 => wopenValueBad e
  | 5, 0x03 => grantValueBad e
  | 5, 0x04 => putValueBad e
  | _, _ => false

/-- The head of an engine queue is an illegal instruction (R76); the values of a null entry are not checked (R78). -/
def State.headBad (s : State) (n : Nat) (e : Entry) : Bool :=
  e.encodingBad (s.core n).me.shape || (!e.null && e.valueBad)

/-- The not-before beat of an instruction is not reached (R56). -/
def State.nbWaits (s : State) (n : Nat) (e : Entry) : Bool :=
  e.h.nb != 0 && decide (s.now < (s.core n).beatBase + e.h.nb.toNat)

/-- The token wait of an instruction is not satisfied (R80). -/
def CoreSt.tokWaits (c : CoreSt) (e : Entry) : Bool := decide (vget c.t e.h.wtok.toNat < e.h.wval.toNat)

/-- The unit that executes the head is not ready for it (R116, R129, R137, R146, R151, R166, R184, R201, R226). -/
def State.unitHeld (s : State) (n : Nat) (e : Entry) : Bool :=
  let c := s.core n
  !e.null && match e.q with
    | 1 => (c.meHeld e).isSome
    | 2 => s.veHeld n e
    | 3 => decide (32 ≤ c.sm.xfers.length)
    | 4 => decide (16 ≤ c.sm.cols.length)
    | _ => e.op == 0x04 && !putOutside e && c.putWaits e

/-- The token wait consumed as an instruction begins (R80). -/
def CoreSt.consume (c : CoreSt) (e : Entry) : CoreSt :=
  { c with t := vmod c.t e.h.wtok.toNat fun v => v - e.h.wval.toNat, progress := true }

/-! ## Beginning (R79, R80) -/

/-- An instruction that is not null begins in its engine. -/
def State.beginOp (s : State) (n : Nat) (e : Entry) : State :=
  match e.q, e.op with
  | 1, 0x01 => s.beginMshape n e
  | 1, 0x02 => s.beginSload n e
  | 1, 0x03 => s.beginIfill n e
  | 1, 0x04 => s.beginMmul n e
  | 1, 0x05 => s.beginAccst n e
  | 2, 0x01 => s.beginVeAdd n e
  | 2, 0x02 => s.beginVeSub n e
  | 2, 0x03 => s.beginVeMul n e
  | 2, 0x04 => s.beginFma n e
  | 2, 0x05 => s.beginVeMin n e
  | 2, 0x06 => s.beginVeMax n e
  | 2, 0x07 => s.beginUnary n e
  | 2, 0x08 => s.beginBit n e
  | 2, 0x09 => s.beginVeCmp n e
  | 2, 0x0A => s.beginCvt n e
  | 2, 0x10 => s.beginReduce n e
  | 2, 0x20 => s.beginFunc n e
  | 2, 0x21 => s.beginFtload n e
  | 2, 0x30 => s.beginCompress n e
  | 2, 0x31 => s.beginExpand n e
  | 2, 0x38 => s.beginSlice n e
  | 2, 0x39 => s.beginCombine n e
  | 2, 0x3F => s.beginVseed n e
  | 3, _ => s.beginXfer n e
  | 4, 0x01 => s.beginGather n e
  | 4, _ => s.beginScatter n e
  | 5, 0x01 => s.beginWopen n e
  | 5, 0x02 => s.beginWclose n e
  | 5, 0x03 => s.beginGrant n e
  | 5, 0x04 => s.beginPut n e
  | _, _ => s.beginRdv n e

/-- A null entry begins: in an engine that completes in order it waits for its turn, in the others it is complete
(R78, R79). -/
def State.beginNull (s : State) (n : Nat) (e : Entry) : State :=
  if e.q = 3 ∨ e.q = 4 then s.signal n e.h.stok.toNat e.h.sval.toNat e.q e.pc
  else s.modCore n fun c => c.launch (e.q - 1) { e := e, done := true }

/-! ## Completion in order (R79, R81) -/

/-- What an instruction of an in-order engine changes as it completes, its signal apart: entry `i` of the flights. -/
def CoreSt.complete (c : CoreSt) (i : Nat) (f : Flight) : CoreSt :=
  let c := { c with progress := true }
  if f.e.null then c
  else match i, f.e.op with
    | 0, 0x02 => c.modMe fun m => m.bump 4 1
    | 0, 0x03 => c.modMe fun m => m.bump 6 1
    | 0, 0x04 => c.modMe fun m => m.bump 0 1
    | 0, _ => c
    | 1, 0x21 =>
      { c with ve := { c.ve with
          slots := vmod c.ve.slots f.e.ve.fn fun x => { x with st := 2 }
          cnt := bump (bump c.ve.cnt 0) 11 } }
    | 1, _ => { c with ve := { c.ve with cnt := bump c.ve.cnt 0 } }
    | _, _ => c

/-- The token that COMPRESS or EXPAND sets (R183). -/
def CoreSt.setCount (c : CoreSt) (f : Flight) : CoreSt :=
  match f.setTok with
  | some (t, v) => { c with t := vset c.t t v }
  | none => c

/-- Instructions that are done complete in order from the oldest (R79). -/
def State.drainQ : Nat → Nat → Nat → State → State
  | 0, _, _, s => s
  | fuel + 1, n, i, s =>
    match vget (s.core n).flights i with
    | [] => s
    | f :: fs =>
      if f.done then
        let s := s.modCore n fun c => (({ c with flights := vset c.flights i fs }).complete i f).setCount f
        State.drainQ fuel n i (s.signal n f.e.h.stok.toNat f.e.h.sval.toNat f.e.q f.e.pc)
      else s

/-- Every in-order engine of a core completes what is done. -/
def State.drain (s : State) (n : Nat) : State :=
  [0, 1, 4].foldl (fun s i => State.drainQ (vget (s.core n).flights i).length n i s) s

/-- Granules issue as far as tags and the regulators allow. -/
def State.pumpN (s : State) (n : Nat) : State := State.pumpStreams 96 n s

/-! ## One pass over the heads (R80, R82) -/

/-- The head of engine queue `q` begins, raises its encoding fault, or waits (none). A die in BROWN_HOLD begins
nothing (R418). -/
def State.headStep (s : State) (n q : Nat) : Option State :=
  let c := s.core n
  match vget c.queues (q - 1) with
  | [] => none
  | e :: es =>
    if s.headBad n e then some (s.raiseFault n q 0x48 e.pc .none)
    else if (s.die (coreDie n)).st = .brownHold ∨ s.nbWaits n e ∨ c.tokWaits e ∨ s.unitHeld n e then none
    else
      let s := s.modCore n fun c => ({ c with queues := vset c.queues (q - 1) es }).consume e
      let s := if e.null then s.beginNull n e else s.beginOp n e
      some ((s.drain n).pumpN n)

/-- The sequencer's current instruction goes one step on, or waits (none). -/
def State.seqStep (s : State) (n : Nat) : Option State :=
  let c := s.core n
  match c.cur with
  | none => none
  | some e =>
    if e.q = 0 then
      if s.nbWaits n e ∨ c.tokWaits e then none
      else if e.h.wval ≠ 0 ∨ e.h.nb ≠ 0 then
        some (s.modCore n fun c => { c.consume e with cur := some { e with h := { e.h with wval := 0, nb := 0 } } })
      else if e.null then some ((s.modCore n fun c => c.seqBump 9 1).seqDone n e (e.pc + 16) true)
      else if c.opWaits e then none
      else some (s.seqOp n e)
    else if c.room e.q then
      some (s.modCore n fun c =>
        let c := if e.null then c.seqBump 9 1 else c
        { c with
          queues := vmod c.queues (e.q - 1) fun l => l ++ [e]
          cur := none
          pc := e.pc + 16
          progress := true })
    else none

/-- The sequencer's current instruction is a TSET or TADD whose header waits are met: it acts before the signals of its
cycle (R82). -/
def CoreSt.tokenFirst (c : CoreSt) : Bool :=
  c.cur.any fun e => e.q == 0 && (e.op == 0x30 || e.op == 0x31) && e.h.wval == 0 && e.h.nb == 0

/-- The heads wait, or begin, in ascending queue code (R82): the queues of `qs`. Answers whether any began. -/
def State.heads (s : State) (n : Nat) (qs : List Nat) : Bool × State :=
  qs.foldl (fun (p : Bool × State) q =>
    if !(p.2.core n).busy then p
    else match if q = 0 then p.2.seqStep n else p.2.headStep n q with
      | some s => (true, s)
      | none => p) (false, s)

/-- One cycle of the token counters and the heads (R80, R82): TSET and TADD of the sequencer, then all signals of
instructions that completed before the cycle, then the heads. Answers whether anything happened. -/
def State.pass (s : State) (n : Nat) : Bool × State :=
  let sigs := (s.core n).sigs
  let first := (s.core n).tokenFirst
  let s := if sigs = [] then s else s.modCore n fun c => { c with sigs := [] }
  let s := if first then (s.seqStep n).getD s else s
  let s := s.applySigs n sigs
  let p := s.heads n (if first then [1, 2, 3, 4, 5] else [0, 1, 2, 3, 4, 5])
  (first || !sigs.isEmpty || p.1, p.2)

/-- Passes until nothing more can begin. -/
def State.passes : Nat → Nat → State → State
  | 0, _, s => s
  | fuel + 1, n, s =>
    let p := s.pass n
    if p.1 then State.passes fuel n p.2 else p.2

/-- Passes that a core can need at most: one for each instruction that can begin and one for the signals after it. -/
def CoreSt.work (c : CoreSt) : Nat := 12 + 2 * sumL (c.queues.toList.map List.length)

/-- Core `n` goes as far as it can without time passing and without a new instruction: races past their deadline are
lost, instructions that are done complete, heads begin, granules issue. -/
def State.settle (s : State) (n : Nat) : State :=
  if (s.core n).busy then
    let s := ((s.passDeadlines n).drain n).pumpN n
    State.passes (s.core n).work n s
  else s

/-! ## Fetch and dispatch (R74 to R78) -/

/-- The instruction-buffer line of the PC is held. -/
def CoreSt.lineHeld (c : CoreSt) : Bool := c.ibuf.contains (c.pc / 1024)

/-- The line of the PC becomes the most recently used (R74). -/
def CoreSt.touchLine (c : CoreSt) : CoreSt :=
  { c with ibuf := (c.pc / 1024 :: c.ibuf.filter fun l => l != c.pc / 1024).take 16 }

/-- The sequencer is ready to fetch. -/
def CoreSt.fetches (c : CoreSt) : Bool := c.st == .running && c.cur == none

/-- A core as an instruction becomes its current one: the results that it reads are ready, and its line is the most
recently used (R74, R85). -/
def CoreSt.fetched (c : CoreSt) : CoreSt := c.awaitResults.touchLine

/-- An instruction becomes the current one: it is read with its registers and predicate (R77), and a sequencer
instruction is checked whole, an engine instruction for its queue code (R76). -/
def State.current (s : State) (n q op : Nat) (h : Hdr) (b : Word) : State :=
  let c := s.core n
  let e : Entry :=
    { q := q, op := op, h := h, b := b, pc := c.pc, null := c.getP h.pred.toNat == h.pneg, regs := c.readRegs }
  let s := s.modCore n CoreSt.fetched
  if (q = 0 ∧ seqBad e) ∨ 5 < q then s.raiseFault n q 0x48 c.pc .none
  else (s.modCore n fun c => { c with cur := some e, progress := true }).settle n

/-- The sequencer of core `n` fetches the instruction (q, op, h, b): the row of every Jarma instruction. It acts when
the word at the PC is that instruction, its line is held, and no earlier one waits; a PC outside the program region
raises 0x4D (R74). A word whose queue code or opcode is undefined is no row's: any of the rows fetches it, and it raises
0x48, at once or at the head of the queue that it names (R76; assumption 44). -/
def State.instr (s : State) (n q op : Nat) (h : Hdr) (b : Word) : State :=
  let c := s.core n
  let w := c.skillet.readLE c.pc 16
  if c.fetches = false then s
  else if c.progEnd ≤ c.pc then s.raiseFault n 0 0x4D c.pc .none
  else if c.lineHeld = false then s
  else if w = instWord q op h b then s.current n q op h b
  else if opDefined (wordQueue w) (wordOp w) then s
  else s.current n (wordQueue w) (wordOp w) (wordHdr w) (wordBody w)

end Sys2Proof.Machine
end

