-- ==== Sys2Proof/Machine/Clock.lean ====
section
/-!
DEFINITION. The clock: what a number of beats that pass do, whatever is commanded (R34 to R36, R52, R53, R66, R96, R155,
R206, R207, R229, R230, R424, R490).
-/

namespace Sys2Proof.Machine

open Sys2Proof

/-! ## Beats and their lengths (R52, R500) -/

/-- Beats of `m` that slewing lengthens or shortens. -/
def slewSteps (w : Int) (m : Nat) : Nat := min w.natAbs m

/-- The sign of a phase error. -/
def signOf (w : Int) : Int := if w < 0 then -1 else if 0 < w then 1 else 0

/-- Core cycles of the next `n` beats, the present one among them. -/
def BeatSt.cycles (b : BeatSt) (n : Nat) : Nat :=
  if n = 0 then 0
  else
    let m := n - 1
    let a := if b.align = 0 ∨ m = 0 then 0 else 1
    ((b.beatLen : Int) + 64 * m + (if a = 1 then b.align else 0) + signOf b.slew * slewSteps b.slew (m - a)).toNat

/-- The beat unit after `n` beat edges (R36, R51 to R53, R500). -/
def BeatSt.advance (b : BeatSt) (n : Nat) : BeatSt :=
  if n = 0 ∨ b.lock = .unlocked then b
  else
    let a := if b.align = 0 then 0 else 1
    let j := slewSteps b.slew (n - a)
    let len : Int := if n = 1 ∧ a = 1 then 64 + b.align
      else if j = n - a then 64 + signOf b.slew else 64
    let b := { b with
      edge := b.edge + n
      slewBeat := decide (0 < j) && decide (j = n - a)
      beatLen := len.toNat
      align := 0
      slew := b.slew - signOf b.slew * j
      elapsed := if b.holdover then min (b.elapsed + n) (2 ^ 20) else 0 }
    match b.sysCount with
    | none => { b with count := b.count + n }
    | some y =>
      if y + n < b.count then { b with sysCount := some (y + n) }
      else { b with sysCount := none, count := y + n }

/-- The count that the system has: the local count, or the one that it is held for (R53). -/
def BeatSt.system (b : BeatSt) : Nat := b.sysCount.getD b.count

/-- The phase is being slewed: this beat is a slewed one, or one is to come (R52). -/
def BeatSt.slewing (b : BeatSt) : Bool := b.slewBeat || b.slew != 0

/-- BEAT_STATUS.DEPTH (Table 2.9): 0 at the root and outside mode 0b10. -/
def BeatSt.depthShown (b : BeatSt) : Nat := if b.mode = 2 ∧ !b.root then b.depth else 0

/-- Edges until a beat is reached (R35, R53). -/
def BeatSt.until_ (b : BeatSt) (beat : Nat) : Nat := if beat ≤ b.count then 0 else beat - b.system

/-! ## What an engine counts in a cycle (R155, R229, R230, R490) -/

/-- The cause of a token wait: counter wait when the token is that of an OPEN window in counter mode (R126). -/
def CoreSt.tokCause (c : CoreSt) (e : Entry) : Nat :=
  if c.wins.toList.any fun w => w.isOpen && w.mode && w.tk == e.h.wtok.toNat then 0xB else 3

/-- The wait of the head of a queue under R80, if it waits. -/
def State.headCause (s : State) (n q : Nat) : Option Nat :=
  match (vget (s.core n).queues (q - 1)).head? with
  | none => none
  | some e =>
    if s.nbWaits n e then some 4
    else if (s.core n).tokWaits e then some ((s.core n).tokCause e)
    else none

/-- Anything is queued, in execution or outstanding in engine `q`. -/
def CoreSt.engaged (c : CoreSt) (q : Nat) : Bool :=
  c.queueBusy q || (c.sm.tags.toList.any fun t => t.g.isSome && ((q == 3 && !t.col) || (q == 4 && t.col)))

/-- BUSY or IDLE. -/
def CoreSt.busyIdle (c : CoreSt) (q : Nat) : Nat := if c.engaged q then 0xC else 0xD

/-- What a granule that is to issue waits for: a tag, a watch, or the regulator. -/
def State.wantCause (s : State) (n : Nat) (col : Bool) : Option Nat :=
  let m := (s.core n).sm
  let w := if col then s.colWant n else m.ladleWant
  match w with
  | none => none
  | some w =>
    if m.freeTagNo.isNone ∨ w.watchFull = true then some 5
    else match s.locate n w.g with
      | .error _ => none
      | .ok (g, _) => if m.passes g then none else some 6

/-- What outstanding granules of a stream engine are held for. -/
def CoreSt.heldCause (c : CoreSt) (col : Bool) : Option Nat :=
  let gs := c.sm.tags.toList.filterMap fun t => if t.col = col then t.g.map (·.2) else none
  if gs.any (·.recon.isSome) then some 9 else if gs.any (·.replay) then some 8 else none

/-- A core's ME takes K-vectors (R155). -/
def CoreSt.mmulEnters (c : CoreSt) : Bool := c.meWork.any Flight.enters

/-- What the ME counts in a cycle in which no K-vector enters (R155, items 2 to 5). -/
def State.meStatus (s : State) (n : Nat) : Nat :=
  let c := s.core n
  let wait := s.headCause n 1
  match (vget c.queues 0).head?.filter fun e => e.op == 0x04 && !e.null with
  | some e => wait.getD ((c.meHeld e).getD 0xC)
  | none => if c.meMoves then 0xC else wait.getD (if accstWaits c.meWork then 0 else 0xD)

/-- The index of Table 17.3 that engine `q` of core `n` counts (R155, R229, R230, R490). -/
def State.engineStatus (s : State) (n q : Nat) : Nat :=
  let c := s.core n
  let head := (vget c.queues (q - 1)).head?
  if (s.die (coreDie n)).st = .brownHold then c.busyIdle q
  else match q with
    | 1 => if c.mmulEnters then 0xC else s.meStatus n
    | 2 =>
      match s.headCause n 2, head with
      | some k, _ => k
      | none, some e => if !e.null && s.veHeld n e then 0 else 0xC
      | none, none => c.busyIdle 2
    | 5 =>
      match s.headCause n 5, head with
      | some k, _ => k
      | none, some e => if s.unitHeld n e then 0xA else 0xC
      | none, none => if c.ownCredits.any (·.full) then 0xA else c.busyIdle 5
    | _ =>
      match s.headCause n q with
      | some k => k
      | none =>
        if head.any (fun e => s.unitHeld n e) then 5
        else (s.wantCause n (q == 4)).getD ((c.heldCause (q == 4)).getD (c.busyIdle q))

/-- Stalls among the cycles of an engine that is else BUSY: the cause and the cycles of each beat. Which accesses name one
bank in one cycle, and what a reread or a link retransmission delays, the manual leaves to the instant: they are free values
(R107, R112, R154, R229), the same for each beat of one advance (assumption 40). While K-vectors enter they are full links
(R155, item 2). -/
def CoreSt.shares (c : CoreSt) (k q status : Nat) : List (Nat × Nat) :=
  if status ≠ 0xC then []
  else
    let x := Config.cycles k (c.draws + 2 * q) % 65
    let y := Config.cycles k (c.draws + 2 * q + 1) % (65 - x)
    if q ≠ 1 then [(7, x), (8, y)] else if c.mmulEnters then [(2, x), (8, y)] else if c.meMoves then [(7, x)] else []

/-- `rest` cycles of `n` beats divided: the cycles of each share, and those that are left. -/
def splitCycles (n : Nat) : Nat → List (Nat × Nat) → List (Nat × Nat) × Nat
  | rest, [] => ([], rest)
  | rest, (i, x) :: l =>
    let t := min rest (n * x)
    let r := splitCycles n (rest - t) l
    ((i, t) :: r.1, r.2)

/-! ## A core over `n` beats -/

/-- The ME duty of a C-die (R426). -/
def DieSt.duty (d : DieSt) : Nat := min d.govDuty d.thermDuty

/-- An MMUL of the core is in execution. -/
def CoreSt.mmulRuns (c : CoreSt) : Bool := (vget c.flights 0).any fun f => f.e.op == 0x04 && !f.e.null && !f.done

/-- Cycles per beat that the duty of its die withholds from a core's ME (R424). -/
def State.withheld (s : State) (n : Nat) : Nat :=
  if (s.core n).mmulRuns then 4 * (16 - (s.die (coreDie n)).duty) else 0

/-- The sequencer counter that its wait raises (R98, R103): 8 a token or not-before wait, 7 RJOIN, 5 a fence or a full
queue. -/
def State.seqWait (s : State) (n : Nat) : Option Nat :=
  let c := s.core n
  match c.cur with
  | none => none
  | some e =>
    if e.q ≠ 0 then some 5
    else if s.nbWaits n e ∨ c.tokWaits e then some 8
    else match e.op with
      | 0x33 => some 8
      | 0x49 => some 7
      | _ => some 5

/-- Beats that do not count toward the watchdog (R96, R418). -/
def State.watchExempt (s : State) (n : Nat) : Bool :=
  let c := s.core n
  (s.die (coreDie n)).st == .brownHold
    || ([1, 2, 3, 4, 5].any fun q => (vget c.queues (q - 1)).head?.any fun e => s.nbWaits n e)
    || c.cur.any fun e => e.q == 0 && (s.nbWaits n e
      || (!c.tokWaits e && !e.null && e.op == 0x49 && (vget c.races (fld e.b 63 62)).st == .pending))

/-- A stall of the last 512 beats: it joins the entry that it goes on from (R66). -/
def addStall (e0 e1 cause per : Nat) (l : List (Nat × Nat × Nat × Nat)) : List (Nat × Nat × Nat × Nat) :=
  let l := l.filter fun x => e1 < x.2.1 + 512
  if l.any fun x => x.2.1 == e0 && x.2.2.1 == cause && x.2.2.2 == per then
    modFirst (fun x => x.2.1 == e0 && x.2.2.1 == cause && x.2.2.2 == per) (fun x => (x.1, e1, cause, per)) l
  else (e0, e1, cause, per) :: l

/-- A regulator bucket over `n` beat edges (R206, R207). -/
def Bucket.advance (b : Bucket) (n : Nat) : Bucket :=
  let b := match b.pending with
    | none => b
    | some (en, r, bu) => { b with enable := en, rate := r, burst := bu, pending := none, level := min b.level (max 1 bu * 2048) }
  if b.enable then { b with level := min (b.level + n * b.rate) (max 1 b.burst * 2048) }
  else { b with level := max 1 b.burst * 2048 }

/-- Engine `q` of a core counts `n` beats of `cyc` cycles that end at edge `e` (R66, R490): its status, and the stalls among
its cycles. -/
def CoreSt.countEngine (n cyc e : Nat) (c : CoreSt) (p : Nat × Nat × List (Nat × Nat)) : CoreSt :=
  let (q, status, sh) := p
  let t := splitCycles n cyc sh
  let win := (if status ≤ 0xB then [(status, 64)] else []) ++ sh.filter fun x => x.2 != 0
  { c with
    stalls := vmod c.stalls (q - 1) fun v => t.1.foldl (fun v x => bumpBy v x.1 x.2) (bumpBy v status t.2)
    stallWin := win.foldl (fun l x => addStall (e - n) e x.1 x.2 l) c.stallWin }

/-- K-vectors enter the array in `m` cycles: the columns of the MMUL that takes them (R150). -/
def CoreSt.takeColumns (m : Nat) (c : CoreSt) : CoreSt :=
  { c with flights := vmod c.flights 0 (modFirst (fun f => !f.done && !f.e.null && f.enters) fun f => { f with left := f.left - m }) }

/-- What the cycles of a core leave to the instant: promotions after 64 cycles, of at most 76 ports in a beat (R108), and cycles
in which an elastic link is full, the stalls that it causes among them (R160): free values. -/
def CoreSt.countInstants (k n cyc full : Nat) (c : CoreSt) : CoreSt :=
  let z := n * max full (Config.cycles k c.draws % 65)
  let c := { c with sklCnt := bumpBy c.sklCnt 0 (Config.cycles k (c.draws + 1) % (76 * n + 1)) }
  let c := if c.mmulRuns then c.modMe fun m => m.bump 9 (min cyc z) else c
  { c with draws := c.draws + 12 }

/-- The counters and the watchdog of a core that is RUNNING or DRAINING, over `n` beats of `cyc` cycles that end at
edge `e`. -/
def State.coreBeats (s : State) (k n cyc e : Nat) : CoreSt :=
  let c := s.core k
  if c.st = .running ∨ c.st = .draining then
    let brown := (s.die (coreDie k)).st == .brownHold
    let shares := fun q => if brown then [] else c.shares k q (s.engineStatus k q)
    let st := [1, 2, 3, 4, 5].map fun q => (q, s.engineStatus k q, shares q)
    let full := if c.mmulEnters then sumL ((shares 1).map (·.2)) else 0
    let c := st.foldl (CoreSt.countEngine n cyc e) c
    let c := (if brown then c else c.takeColumns (cyc - n * (s.withheld k + full))).countInstants k n cyc full
    let c := { c with seqCycles := satAdd 64 c.seqCycles cyc }
    let held := (vget c.queues 1).head?.any fun e => !e.null && (s.headCause k 2).isNone && s.vePending k e
    let c := if held && !brown then { c with ve := { c.ve with cnt := bumpBy c.ve.cnt 12 cyc } } else c
    let c := match s.seqWait k with
      | none => c
      | some i => c.seqBump i cyc
    let c := if s.withheld k = 0 then c
      else { c with stallWin := addStall (e - n) e 0xD (s.withheld k) c.stallWin }
    let base := if c.progress then 0 else c.noProg
    let more := if c.progress then n - 1 else n
    let np := if s.watchExempt k then base else base + more
    { c with noProg := np, progress := false, late := [] }
  else c

/-! ## The package over `n` beats -/

/-- Beats with a reading above T_WARN raise risk input 5 for each 65,536 (R426, Table 13.8). -/
def State.hotBeats (s : State) (n : Nat) : State :=
  if s.power.tmax.toList.any fun t => decide (s.power.tWarn < t) then
    let t := s.lid.riskBeats + n
    iter (fun s => s.addRisk 5) (t / 65536) (s.modLid fun l => { l with riskBeats := t % 65536 })
  else s

/-- The count takes a system count: it steps forward to it, or holds until it is reached (R53). -/
def BeatSt.adopt (b : BeatSt) (sys : Nat) : BeatSt :=
  if b.count ≤ sys then { b with count := sys, sysCount := none } else { b with sysCount := some sys }

/-- The encoding of a lock state (Table 2.2). -/
def LockState.code : LockState → Nat
  | .unlocked => 0
  | .freqLocked => 1
  | .phaseLocked => 2
  | .timeLocked => 3

/-- A log event of the beat unit. -/
def beatEv (code : Nat) : LogEv := { code := code, unit := 0xF2 }

/-- The beat unit changes its state, with one record (R46). A pending seed is discarded as PHASE_LOCKED is left
without it (R47). -/
def State.setLock (s : State) (l : LockState) (code : Nat) : State :=
  let drop := s.beat.lock == .phaseLocked && s.beat.pendingSeed.isSome
  let s := s.modBeat fun b => { b with lock := l, pendingSeed := none, prevPulse := none, occ := none, adoptDue := none }
  let s := s.logEv { beatEv code with
    sub := if code = 0x3F then l.code else 0, extra := if code = 0x3F then l.code else 0 }
  if drop then s.logEv (beatEv 0x3B) else s

/-- As a beat ends, the count of a second occasion whose markers all agree is adopted at the edge on which its marker is
timed (R48, R53): the system count has gone on from there (the moment: DESIGN CHOICE, assumption 37). -/
def State.adoptNow (s : State) : State :=
  match s.beat.adoptDue with
  | none => s
  | some (v, e) =>
    let s := s.modBeat fun b =>
      { b.adopt (65536 * (v : Int) + ((b.edge : Int) - (e : Int))).toNat with residue := 0 }
    s.setLock .timeLocked 0x3F

/-- `n` beats pass (R35, R52). While the beat unit is UNLOCKED no beat passes (R44). What each engine waits for is
taken as it stands at the start. -/
def State.advance (s : State) (n : Nat) : State :=
  if n = 0 ∨ s.beat.lock = .unlocked then s
  else
    let s := s.adoptNow
    let cyc := s.beat.cycles n
    let e := s.beat.edge + n
    let held := (List.range 4).map fun d => sumL ((List.range 48).map fun i => s.withheld (48 * d + i))
    let s1 : State :=
      { s with
        cores := vmapIdx s.cores fun k _ =>
          let c := s.coreBeats k n cyc e
          { c with sm := { c.sm with buckets := vmap c.sm.buckets fun b => b.advance n } }
        regions := vmapIdx s.regions fun r => Region.beats r s.edge n
        ports := vmap s.ports fun p => p.beats s.edge n
        beat := s.beat.advance n }
    let s2 := (List.range 4).foldl (fun (s : State) d =>
      let s := s.pwrCnt (2 * d) (n * held.getD d 0)
      if (s.die d).st = .brownHold then s.pwrCnt (2 * d + 1) n else s) s1
    (s2.hotBeats n).drainMerge

/-- One beat passes: a step with nothing commanded (DESIGN CHOICE, assumption 1). -/
def State.tick (s : State) : State := s.advance 1

/-- The clock runs to a beat that it has not reached (R35). -/
def State.toBeat (s : State) (b : Nat) : State := s.advance (s.beat.until_ b)

/-- The clock runs to a beat edge that it has not reached. -/
def State.toEdge (s : State) (e : Nat) : State := s.advance (e - s.edge)

end Sys2Proof.Machine
end

