-- ==== Sys2Proof/Machine/Freeze.lean ====
section
/-!
DEFINITION. The cadence of secures, the freeze of an image and the start of its copy, and the start of a restoration:
what commits, lost objects and resets need of the Lid (R386 to R408).
-/

namespace Sys2Proof.Machine

open Sys2Proof

/-- Securing state of a partition. -/
def State.lp (s : State) (p : Nat) : LidPart := vget s.lid.parts p
/-- The state with the securing state of a partition changed. -/
def State.modLp (s : State) (p : Nat) (f : LidPart → LidPart) : State :=
  s.modLid fun l => { l with parts := vmod l.parts p f }
/-- The state with a partition changed. -/
def State.modPart (s : State) (p : Nat) (f : Part → Part) : State :=
  s.modCmdU fun u => { u with parts := vmod u.parts p f }
/-- Partition `p`. -/
def State.part (s : State) (p : Nat) : Part := vget s.cmd.parts p

/-- BASE_STEPS and L_STEPS as they act (R404). -/
def LidPart.lim (l : LidPart) : Nat := max 1 l.lSteps
/-- BASE_STEPS as it acts (R404). -/
def LidPart.base (l : LidPart) : Nat := min (max 1 l.baseSteps) l.lim

/-- A secure of partition `p` runs or waits for its copy (R404). -/
def State.securing (s : State) (p : Nat) : Bool :=
  (s.lid.secure.toList ++ s.lid.frozen).any fun x => x.part == p

/-! ## The image (R388, R389, R391) -/

/-- An object is owned by a client of a partition. -/
def ownedBy (p : Nat) (o : Obj) : Bool := o.part == p && o.st != .creating

/-- Bytes of an image, laid out as in Table 13.3. -/
def Image.bytes (i : Image) : Nat :=
  2 ^ 22 + roundUp (sumL (i.journal.map JRec.size)) 4096 + roundUp (64 * i.objs.length) 4096
    + sumL (i.objs.filterMap fun x => x.content.map fun _ => roundUp x.obj.size 4096)

/-- Pages of an image from offset 4 MiB on, and chunks of 2 MiB there (Table 13.3). -/
def Image.bodyPages (i : Image) : Nat := ceilDiv (i.bytes - 2 ^ 22) 4096
/-- Chunks of 2 MiB from offset 4 MiB on. -/
def Image.chunks (i : Image) : Nat := ceilDiv (i.bytes - 2 ^ 22) 0x200000
/-- Pages of the digest list. -/
def Image.listPages (i : Image) : Nat := ceilDiv (32 * i.chunks) 4096
/-- Pages that a secure sends: the body, the digest list, the header (R392, step 2). -/
def Image.sendPages (i : Image) : Nat := i.bodyPages + i.listPages + 1
/-- Index in the slot of the `k`th page sent. -/
def Image.pageIndex (i : Image) (k : Nat) : Nat :=
  if k < i.bodyPages then 1024 + k else if k < i.bodyPages + i.listPages then 1 + k - i.bodyPages else 0

/-- The object, and the offset in it, whose content begins `k` pages into the contents of frozen objects. -/
def contentPage (k : Nat) : List ImgObj → Option (Obj × Nat)
  | [] => none
  | x :: xs =>
    let n := if x.content.isSome then ceilDiv x.obj.size 4096 else 0
    if k < n then some (x.obj, 4096 * k) else contentPage (k - n) xs

/-- The object, and the offset in it, that the page at an index of a slot holds; none where it holds no content. -/
def Image.source (i : Image) (k : Nat) : Option (Obj × Nat) :=
  let first := 1024 + ceilDiv (sumL (i.journal.map JRec.size)) 4096 + ceilDiv (64 * i.objs.length) 4096
  if k < first then none else contentPage (k - first) i.objs

/-- The image of a partition as things stand (R388, R391). -/
def State.imageOf (s : State) (p : Nat) : Image :=
  let cs := (List.range 64).filter fun c => (vget s.cmd.clients c).valid && (vget s.cmd.clients c).part == p
  { part := p, gen := (s.lp p).gen + 1, freezeBeat := s.now, freezeSeq := s.cmd.nextSeq - 1, nextAccept := s.cmd.nextAccept
    cfgFp := leAt s.cfg.fp 0 8
    clients := cs.map fun c => (c, vget s.cmd.clients c)
    quotas := cs.map fun c => (c, (vget s.tongs.quotas c).toList)
    enable := (s.part p).enable, cores := (s.part p).cores
    journal := s.cmd.journal.filter fun r => r.part == p
    objs := (sortBy (fun a b => decide (a.idx ≤ b.idx)) (s.tongs.objs.filter (ownedBy p))).map fun o =>
      { obj := o, content := if o.secure ∧ o.cur.tier ≤ 1 then some o.cur.content else none } }

/-! ## Messages of the Lid (R392) -/

/-- A message of the Lid to the partner's, with its tag. -/
def State.sendLid (s : State) (b : Body) : Nat × State :=
  let (tag, s) := s.freshTag
  (tag, s.sendFabric { body := b, dst := s.lid.partner, dunit := 0xF3, sunit := 0xF3, tag := tag })

/-- A route to the partner exists. -/
def State.partnerRoute (s : State) : Bool :=
  match s.nextHop s.lid.partner 1 false none with
  | .to .. => true
  | _ => false

/-- PAIR goes out once a route to the partner exists (R383). -/
def State.sendPair (s : State) : State :=
  let l := s.lid
  if !s.power.ready ∨ !l.partnerValid ∨ !s.cfg.valid ∨ (l.st ≠ .unpaired ∧ l.st ≠ .pairing) ∨ l.pairOut.isSome ∨ !s.partnerRoute then s
  else
    let s := s.modLid fun l => { l with st := if l.st = .unpaired then .pairing else l.st }
    let (tag, s) := s.sendLid (.pair s.cfg.pkgId s.power.feedId l.partner l.slotGib)
    s.modLid fun l => { l with pairOut := some tag, pairTries := 1, pairEdge := s.edge }

/-- A secure ends without completing: the previous image stays valid, the held extents are let go, and the secure falls
due again at the next commit (R397). -/
def State.abandonQuiet (s : State) (p : Nat) : State :=
  let s := s.modLid fun l =>
    { l with
      secure := (match l.secure with
        | some x => if x.part = p then none else some x
        | none => none)
      frozen := l.frozen.filter fun x => x.part != p }
  (s.modLp p fun x => { x with again := true }).lidCnt 2 1

/-- A secure abandoned with code 0x78 and a detail (R397). -/
def State.abandon (s : State) (p detail : Nat) : State :=
  (s.abandonQuiet p).logEv { code := 0x78, unit := 0xF3, sub := detail }

/-- The next frozen image begins its copy when none runs: step 1 of R392 (R395). -/
def State.startCopy (s : State) : State :=
  match s.lid.secure, s.lid.frozen with
  | none, x :: xs =>
    let (tag, s) := s.sendLid (.sealRec 0 x.part x.slot (List.replicate 256 0))
    s.modLid fun l => { l with secure := some { x with out := [tag], sentEdge := s.edge }, frozen := xs }
  | _, _ => s

/-- Secures, and flash and store copies, whose image holds what is lost are abandoned with detail 3 (Table 13.6; of the flash and
store copies the rules do not say it: DESIGN CHOICE, assumption 23). -/
def State.dropImages (s : State) (hits : Image → Bool) : State :=
  let gone := (s.lid.secure.toList ++ s.lid.frozen).filter fun x => hits x.image
  let s := gone.foldl (fun s x => s.abandon x.part 3) s
  let slow := (s.lid.flash.toList ++ s.lid.store.toList).filter fun x => hits x.image
  let s := s.modLid fun l =>
    { l with
      flash := l.flash.filter fun x => !hits x.image
      store := l.store.filter fun x => !hits x.image }
  (slow.foldl (fun (s : State) _ => s.logEv { code := 0x78, unit := 0xF3, sub := 3 }) s).startCopy

/-- A version of which an image holds the extents has one that satisfies `p` (R391). -/
def Image.holdsIn (i : Image) (p : Version → Bool) : Bool := i.objs.any fun x => x.content.isSome && p x.obj.cur

/-- A C-die is in BROWN_HOLD (Table 13.6). -/
def State.anyBrown (s : State) : Bool := s.dies.toList.any fun d => d.st = .brownHold

/-- The freeze of a partition (R390, R391). An image larger than its slot is not written (R389). -/
def State.freeze (s : State) (p : Nat) : State :=
  let l := s.lp p
  let i := s.imageOf p
  let s := s.modLid fun u => { u with dueQ := u.dueQ.filter fun q => q != p }
  let s := s.modLp p fun l => { l with due := false, stepsSince := 0, lastFreeze := s.now, commitsSince := 0 }
  let s := s.lidCnt 0 1
  if l.slotUnits * extentBytes < i.bytes then s.abandon p 1
  else
    let x : Secure :=
      { part := p, slot := if l.active = 1 then 1 else 0, gen := i.gen, image := i, step := .clearSeal
        pages := i.sendPages, sentEdge := s.edge }
    (s.modLid fun u => { u with frozen := u.frozen ++ [x] }).startCopy

/-! ## Cadence (R402 to R405) -/

/-- A secure of a partition falls due (R390, R404). -/
def State.fallDue (s : State) (p : Nat) : State :=
  let s := s.modLid fun l => { l with dueQ := if l.dueQ.contains p then l.dueQ else l.dueQ ++ [p] }
  s.modLp p fun l => { l with due := true, again := false }

/-- A native partition of a paired package (R384, R386). -/
def State.secured (s : State) (p : Nat) : Bool := (s.lp p).native && !s.unpaired

/-- A commit of partition `p` has flipped its outputs (R402, R404). `atD` marks a group commit. -/
def State.onCommit (s : State) (p : Nat) (marker atD : Bool) : State :=
  if !s.secured p then s
  else
    let s := s.modLp p fun l =>
      { l with commitsSince := l.commitsSince + 1, stepsSince := l.stepsSince + b2n marker, stepsDone := l.stepsDone + b2n marker }
    let l := s.lp p
    if s.securing p then s
    else if l.align then
      if marker ∧ atD ∧ (l.again ∨ l.base ≤ l.stepsSince) ∧ !s.anyBrown then
        (s.modLp p fun l => { l with again := false }).freeze p
      else s
    else if l.again ∨ l.base ≤ l.stepsSince then s.fallDue p
    else if s.lid.high ≤ s.lid.risk ∧ l.lastFreeze + s.lid.minGap ≤ s.now ∧ 1 ≤ l.commitsSince then
      (s.fallDue p).lidCnt 13 1
    else s

/-- A command flips its partition's marker object (R402). -/
def State.flipsMarker (s : State) (c : Cmd) : Bool :=
  c.objs.any fun u => 1 ≤ u.role && u.role ≤ 3 && u.handle == (s.lp c.part).marker && u.handle != 0

/-- The commit of a command waits at the securing ceiling (R405). -/
def State.atCeiling (s : State) (c : Cmd) : Bool :=
  s.secured c.part && s.flipsMarker c && decide ((s.lp c.part).lim ≤ (s.lp c.part).stepsDone)

/-- New local COMMIT records of a partition wait for its freeze (R390). -/
def State.freezeHolds (s : State) (p : Nat) : Bool := s.secured p && (s.lp p).due

end Sys2Proof.Machine
end

