-- ==== Sys2Proof/Machine/Commit.lean ====
section
/-!
DEFINITION. How commands end: resolution and its reply, the end of an attempt without commit, flips of the home
entries, commits, and objects that become LOST (R256 to R265, R297, R356, R365, R366, R375).
-/

namespace Sys2Proof.Machine

open Sys2Proof

/-! ## Records and replies (R356, R359, R360) -/

/-- A record written, and mirrored when there is a partner; nothing waits for it. -/
def State.note (s : State) (r : JRec) : State := (s.writeMirror r .plain).2

/-- Records of a command are released at resolution: without a partner, or of a compatibility partition (R360). The
command is then known no more. -/
def State.dropRecords (s : State) (a part : Nat) : State :=
  if s.secured part then s
  else s.modCmdU fun u =>
    { u with journal := u.journal.filter fun r => r.acceptNo != a, cmds := u.cmds.filter fun c => c.acceptNo != a }

/-- Unresolved commands of a job of a partition. -/
def State.jobCmds (s : State) (p job : Nat) : List Cmd :=
  s.cmd.cmds.filter fun c => c.part == p && c.job == job && c.kind != 3 && c.stage != .resolved

/-- JOB_END requests are answered, and the context freed, when the job has no unresolved command (R378). -/
def State.checkJob (s : State) (p job : Nat) : State :=
  match (s.part p).ctxs.find? fun x => x.job == job with
  | none => s
  | some x =>
    if x.ending = [] ∨ s.jobCmds p job ≠ [] then s
    else
      let s := s.modPart p fun q => { q with ctxs := q.ctxs.filter fun y => y.job != job }
      x.ending.foldl (fun s r => s.reply r.1 { kind := 3, req := r.2 }) s

/-- The final reply of a command (Table 12.4). -/
def Cmd.finalReply (c : Cmd) (kind code sub cause pkg : Nat) (limit : Bool) (result : Nat) (data : List Byte) : Reply :=
  { kind := kind, code := code, attempts := min c.attempts 255, limit := limit, sub := sub, cause := cause, pkg := pkg
    req := c.req, acceptNo := c.acceptNo, result := result, data := data }

/-- A command is resolved: its reply is sent once (R356, R408), it is counted, and its partition and records are freed
(R353, R360). -/
def State.resolve (s : State) (a : Nat) (r : Reply) : State :=
  match s.getCmd a with
  | none => s
  | some c =>
    let s := s.modCmd a fun c => { c with stage := .resolved, final := some r }
    let s := s.cliCnt c.client (if r.kind = 3 then 2 else 3) 1
    let s := s.cliCnt c.client 5 (if c.attempts = 0 then 0 else s.edge - c.startEdge)
    let s := s.modPart c.part fun p => if p.running = some a then { p with running := none } else p
    let s := if c.restored ∧ r.kind = 3 then s else s.reply c.tag r
    let s := c.preempts.foldl (fun s p => s.reply p.1 { kind := 3, req := p.2 }) s
    (s.dropRecords a c.part).checkJob c.part c.job

/-- A command FAILS: FAIL record and FAILED reply (Table 12.6, R356). -/
def State.failCmd (s : State) (a code sub cause pkg : Nat) (limit : Bool) : State :=
  match s.getCmd a with
  | none => s
  | some c =>
    let s := s.note (c.record code .fail)
    s.resolve a (c.finalReply 4 code sub cause pkg limit 0 [])

/-! ## Staged versions (R259, R364, R366) -/

/-- The staged version of one use is let go under R259. -/
def State.releaseUse (s : State) (a : Nat) (u : ObjUse) : State :=
  match u.staged, s.tongs.byHandle u.handle with
  | some v, some o =>
    let s := ((s.release o.owner u.handle v (some a)).mergeDrop o.idx (some a)).dropReqs (.stage a u.handle)
    s.modObj o.idx fun o => { o with stagedBy := o.stagedBy.filter fun b => b != a }
  | _, _ => s

/-- Every staged and scratch version of a command is released (R366). -/
def State.releaseStaged (s : State) (a : Nat) : State :=
  match s.getCmd a with
  | none => s
  | some c =>
    let s := c.objs.foldl (fun s u => s.releaseUse a u) s
    s.modCmd a fun c => { c with objs := c.objs.map fun u => { u with staged := none, copied := true } }

/-! ## The end of an attempt (R366, Table 12.9) -/

/-- A core is IDLE again: its windows are closed and what belonged to the command is let go (R110, R130). -/
def CoreSt.toIdle (c : CoreSt) (edge : Nat) : CoreSt :=
  let c := c.closeWindows
  { c with
    st := .idle
    cur := none
    cmd := none
    loading := none
    ibuf := []
    idleSince := edge
    lastJob := c.lastJob
    puts := []
    races := Vector.replicate 4 {} }

/-- Every core of a command is IDLE or has been given to another. -/
def State.coresIdle (s : State) (a : Nat) : Bool := s.cores.toList.all fun c => c.cmd != some a || c.st == .idle

/-- The counter of CMD_CLI for a rerun with a code (Table 12.22). -/
def rerunIndex (code sub : Nat) (elsewhere : Bool) : Nat :=
  if 0x20 ≤ code ∧ code ≤ 0x2F then 8
  else if 0x30 ≤ code ∧ code ≤ 0x3F then 9
  else if (0x60 ≤ code ∧ code ≤ 0x6F) ∨ code = 0x72 then 10
  else if code = 0x42 ∧ sub = 1 then 12
  else if code = 0x42 ∧ sub = 4 then 14
  else if code = 0x42 ∧ elsewhere = true then 11
  else if code = 0x1C then 13
  else 15

/-- A rerun is counted for its client. -/
def State.countRerun (s : State) (c : Cmd) (k : Nat) : State := (s.cliCnt c.client 7 1).cliCnt c.client k 1

/-- A group's state for its next attempt, with a new base (R375). -/
def Group.again (g : Group) (base : Nat) : Group :=
  { gid := g.gid, start := g.start, boxLo := g.boxLo, boxHi := g.boxHi, nrdv := g.nrdv, coordPartner := g.coordPartner
    rerunDelay := g.rerunDelay, entries := g.entries, base := base }

/-- A command goes back to the head of its job for its next attempt (R366, R375). -/
def State.requeue (s : State) (a notBefore : Nat) (base : Option Nat) : State :=
  match s.getCmd a with
  | none => s
  | some c =>
    let s := s.modCmd a fun c =>
      { c with
        stage := .queued, epoch := (c.epoch + 1) % 65536, notBefore := notBefore, cores := [], ended := [], kill := none
        code := 0, sub := 0, cause := 0, causePkg := 0
        group := c.group.map fun g => g.again (base.getD g.base) }
    s.modPart c.part fun p => if p.running = some a then { p with running := none } else p

/-- PREEMPT requests of a command whose cores are IDLE are answered (R377). -/
def State.answerPreempts (s : State) (a : Nat) : State :=
  match s.getCmd a with
  | none => s
  | some c =>
    let s := s.modCmd a fun c => { c with preempts := [] }
    c.preempts.foldl (fun s p => s.reply p.1 { kind := 3, req := p.2 }) s

/-- The attempt of a RUN command has ended without commit: Table 12.9. -/
def State.endRun (s : State) (c : Cmd) : State :=
  let a := c.acceptNo
  let s := s.note (c.record c.code (.abort 0))
  if c.code = 0x1C then
    let s := s.note (c.record c.code (.held c.heldAt.1 c.heldAt.2))
    let s := s.modCmd a fun c => { c with stage := .held }
    s.modPart c.part fun p => if p.running = some a then { p with running := none } else p
  else if rerunClass c.code c.sub then
    if c.rerunMax < c.attempts then s.failCmd a c.code c.sub c.cause c.causePkg true
    else (s.countRerun c (rerunIndex c.code c.sub false)).requeue a c.notBefore none
  else s.failCmd a c.code c.sub c.cause c.causePkg false

/-- A group participant whose cores are IDLE applies an ABORT or FAIL decision (R375). A FAIL whose cause allows a rerun was
decided for the coordinator's rerun limit (R368, R373). A FAIL for ABORT carries the immediate of this package's own ABORT
in DETAIL (R97). -/
def State.endGroup (s : State) (c : Cmd) (g : Group) (d : Decision) : State :=
  let a := c.acceptNo
  let own := g.voted == some 2 || g.voted == some 3
  let s := s.note (c.record (if d.kind = 3 then d.cause else c.code) (.abort (if d.kind = 3 then 0 else d.beat)))
  let limit := rerunClass d.cause 1 || d.cause == 0x4F
  if d.kind = 3 then
    if c.code = 0x4C ∧ d.cause = 0x4C then s.failCmd a d.cause c.sub c.cause d.first limit
    else s.failCmd a d.cause 0 d.cause d.first limit
  else
    let mine := own && d.first == s.cfg.pkgId
    let k := if !mine then rerunIndex 0x42 2 true
      else if c.code = 0x42 ∧ c.sub = 2 then rerunIndex d.cause 0 false
      else rerunIndex c.code c.sub false
    (s.countRerun c k).requeue a d.beat (some d.beat)

/-- The cores of a command whose attempt is ending are all IDLE: the attempt ends (R366). A group participant waits
for the decision and keeps its staged versions until it has it (R375, R376). -/
def State.endAttempt (s : State) (a : Nat) : State :=
  match s.getCmd a with
  | none => s
  | some c =>
    if c.stage ≠ .aborting ∨ !s.coresIdle a then s
    else
      let s := s.answerPreempts a
      match c.group with
      | none => (s.releaseStaged a).endRun c
      | some g => match g.decision with
        | some d => if d.kind = 1 then s else (s.releaseStaged a).endGroup c g d
        | none => s.modCmd a fun c => { c with stage := .votedAbort }

/-- A command's cores stop, and when none of them has to, its attempt ends at once (R366). -/
def State.stopAttempt (s : State) (a code sub cause pkg : Nat) : State :=
  (s.stopCmd a code sub cause pkg).endAttempt a

/-! ## Object requests (Table 9.5) -/

/-- The body of an object request. -/
structure ObjReq where
  op : Nat
  flags : Nat
  place : Nat
  part : Nat
  handle : Nat
  arg : Nat
  hostAddr : Nat
deriving DecidableEq, Repr

/-- The request in a 64-byte body. -/
def objReq (b : List Byte) : ObjReq :=
  { op := leAt b 0 1, flags := leAt b 1 1, place := leAt b 2 1, part := leAt b 3 1, handle := leAt b 4 4, arg := leAt b 8 8
    hostAddr := leAt b 16 8 }

/-- TIER of a request. -/
def ObjReq.tier (r : ObjReq) : Nat := r.flags % 4
/-- PRESS of a request. -/
def ObjReq.press (r : ObjReq) : Bool := bitOf r.flags 2

/-- The request of an OBJECT command: its parameter block follows header and object entries. -/
def Cmd.objReq (c : Cmd) : ObjReq := Sys2Proof.Machine.objReq (c.message.drop (64 + 8 * leAt c.message 6 2))

/-- An object request COMPLETES: DONE record and reply (Table 12.6, Table 9.6). -/
def State.doneObj (s : State) (a result : Nat) (data : List Byte) : State :=
  match s.getCmd a with
  | none => s
  | some c =>
    let s := s.note (c.record 0 (.done result data))
    s.resolve a (c.finalReply 3 0 0 0 0 false result data)

/-- The handle that the record of an object request names: its own, or that of the object that its CREATE makes (R283). -/
def State.reqAddr (s : State) (c : Cmd) : LogAddr :=
  let h := c.objReq.handle
  if h ≠ 0 then .object h 0
  else match s.tongs.objs.find? fun o => o.st == .creating && o.version == c.acceptNo && o.owner == c.client with
    | some o => .object o.handle 0
    | none => .none

/-- An object request FAILS with a code and a detail; one log record is written, with the handle where there is one (R283,
R504). -/
def State.failObj (s : State) (a code detail : Nat) : State :=
  let s := s.logEv
    { code := code, unit := 0xF0, sub := detail, acceptNo := a, addr := ((s.getCmd a).map s.reqAddr).getD .none }
  let s := if code = 0x53 then s.tngCnt 8 1 else s
  s.failCmd a code detail 0 s.pkgIdField false

/-! ## MOVE and EVICT start (R258, R261 to R263, R266) -/

/-- Target of a MOVE or EVICT: tier, codec, placement, and the host range of a RAW version of the host tier. -/
def ObjReq.target (r : ObjReq) (o : Obj) : Nat × Bool × Nat × Option Nat :=
  if r.op = 0x04 then (r.tier, true, o.cur.place, some 0) else (r.tier, r.press, r.place, some r.hostAddr)

/-- The move of a MOVE or EVICT starts: the lock is COPY and its targets are allocated (R258, steps 1 and 2). It waits for
evictions with the lock taken, or fails and gives the lock back (R266, Table 9.7). `already` marks one that waited. -/
def State.goMove (s : State) (a : Nat) (already : Bool) : State :=
  match s.getCmd a with
  | none => s
  | some c =>
    let r := c.objReq
    match s.tongs.byHandle r.handle with
    | none => s.failObj a 0x50 0
    | some o =>
      let (tier, press, place, host) := r.target o
      if o.phase ≠ .none ∧ already = false then s.failObj a 0x53 o.target
      else
        let s := s.modObj o.idx fun o => { o with phase := .copy, target := tier }
        match s.ask already { client := o.owner, tier := tier, press := press, named := tier == 2 && !press, n := o.extents } with
        | (.fail code, s) => ((s.doneWait a).modObj o.idx fun o => { o with phase := .none }).failObj a code 0
        | (.wait code, s) => s.waitAlloc a code
        | (.ok, s) =>
          let (v, s) := (s.doneWait a).newVersion o.owner tier press place host o.extents {}
          let kind := if r.op = 0x04 then MoveKind.evict else .move
          (s.startMove o.idx kind a v).tngCnt (if r.op = 0x04 then 3 else 2) 1

/-- The queued evict of an object whose lock is NONE is evaluated (R262). -/
def State.queuedEvict (s : State) (idx : Nat) : State :=
  match s.tongs.byIdx idx with
  | none => s
  | some o =>
    match o.evictQ with
    | none => s
    | some (t, a) =>
      let s := s.modObj idx fun o => { o with evictQ := none }
      if o.st = .lost then s.failObj a 0x59 0
      else if t ≤ o.cur.tier then (s.doneObj a o.cur.tier []).tngCnt 10 1
      else if o.pin then s.failObj a 0x5B 0
      else s.goMove a false

/-- The object of a MOVE or EVICT. -/
def State.moveIdx (s : State) (c : Cmd) : Nat := ((s.tongs.byHandle c.objReq.handle).map (·.idx)).getD 0

/-- The lock of an entry may have returned to NONE: a queued evict is then evaluated (R262). -/
def State.unlocked (s : State) (idx : Nat) : State :=
  if (s.tongs.byIdx idx).any fun o => o.phase == .none then s.queuedEvict idx else s

/-- The wait for the targets of a move of an entry: of a MOVE or EVICT, or of a move that no request asked for (R258,
R266). -/
def State.waitingMove (s : State) (idx : Nat) : Option AllocWait :=
  s.tongs.waits.find? fun w => match w.auto with
    | some (i, _) => i == idx
    | none => (s.getCmd w.acceptNo).any fun c => c.kind == 3 && c.objReq.op != 0x01 && s.moveIdx c == idx

/-- The allocation of targets that a MOVE or EVICT waits for is given up with a code: the lock returns to NONE and the
request FAILS (R266, Table 9.7). -/
def State.giveUpWait (s : State) (idx a code : Nat) : State :=
  ((s.doneWait a).modObj idx fun o => { o with phase := .none }).failObj a code 0

/-- The targets of a move that no request asked for are waited for no more: it is abandoned (Table 9.7). -/
def State.giveUpAuto (s : State) (idx : Nat) : State := (s.doneAuto idx).modObj idx fun o => { o with phase := .none }

/-! ## Flips (R258 to R261, R365) -/

/-- A version becomes the current one in a single write of the home entry: its charge is computed anew (R265), the
version that it replaces is released (R259), and the entry leaves the home caches. -/
def State.flip (s : State) (o : Obj) (v : Version) (version : Nat) : State :=
  let ch := v.chargeOf
  let s := s.uncharge o.owner v.tier (v.charge - ch)
  let s := s.release o.owner o.handle o.cur none
  let s := s.modObj o.idx fun o =>
    { o with cur := { v with charge := ch }, st := .resident, lastUse := s.now, version := version }
  (s.invalidate o.idx).tngCnt 15 1

/-- The move of an object that copies is given up with a code (Table 9.7): its targets are freed, the lock is NONE, its
request FAILS, or its eviction is abandoned. -/
def State.giveUpMove (s : State) (idx code : Nat) : State :=
  let count := fun (s : State) => if code = 0x5A then s.tngCnt 7 1 else s
  match s.tongs.moves.find? fun m => m.idx == idx with
  | none => match s.waitingMove idx with
    | none => s
    | some w => if w.auto.isSome then (count s).giveUpAuto idx else (count s).giveUpWait idx w.acceptNo code
  | some m =>
    let s := count (s.cancelMove idx)
    if m.kind = .auto ∨ m.kind = .retire then s else s.failObj m.acceptNo code 0

/-- An attempt that holds a staged extent of a lost row can still be stopped: the package has neither begun its commit nor voted
COMMIT (R293; DEDUCED, assumption 57). -/
def Cmd.stoppable (c : Cmd) : Bool :=
  [.staging, .running, .commitWait, .preparing, .prepared].contains c.stage
    && c.group.all fun g => g.voted != some 1 && g.decision.isNone && g.deciding.isNone

/-! ## The start of a restoration (R407, R408) -/

/-- A partition enters HELD: a running command whose commit has not begun stops with code 0x42, detail 4, and its attempt ends (R408,
step 1). -/
def State.holdPart (s : State) (p : Nat) : State :=
  let s := s.modPart p fun x => { x with heldRestore := true }
  match (s.part p).running.bind s.getCmd with
  | none => s
  | some c =>
    let a := c.acceptNo
    if !c.stoppable then s
    else
      let s := s.logEv { code := 0x42, unit := 0xF1, sub := 4, acceptNo := a }
      (s.voteNeg a false 0x42 0).stopAttempt a 0x42 4 0 s.pkgIdField

/-- A restoration of a partition starts from a source, at a freeze beat or 0 (R408). -/
def State.startRestore (s : State) (p source point : Nat) : State :=
  let s := s.holdPart p
  s.modLid fun l =>
    { l with restoring := (l.restoring.filter fun r => r.part != p) ++ [{ part := p, source := source, point := point }] }

/-- A partition whose local state or object is lost takes its path of Table 13.9; a compatibility partition takes
none here. -/
def State.stateLost (s : State) (p : Nat) : State :=
  let l := s.lp p
  if !l.native then s
  else if l.align then
    (s.holdPart p).logEv { code := 0x7C, unit := 0xF3, sub := 1 }
  else s.startRestore p 0 0

/-! ## LOST objects (R293, R297, Table 13.9) -/

/-- An object becomes LOST (R297): a move of it that copies is given up (Table 9.7), a queued evict is evaluated if the lock
is then NONE (R262), the secures that hold its extents are abandoned (Table 13.6), and its partition takes its path of Table 13.9. -/
def State.makeLost (s : State) (idx : Nat) : State :=
  match s.tongs.byIdx idx with
  | none => s
  | some o =>
    if o.st ≠ .resident then s
    else
      let s := if o.phase = .copy then s.giveUpMove idx 0x59 else s
      let s := (s.modObj idx fun o => { o with st := .lost }).unlocked idx
      (s.dropImages fun i => i.holds o.cur.tier o.cur.wheres).stateLost o.part

/-! ## Commits (R261, R365) -/

/-- An output of a committing command flips, unless its object is in FLIP (R261); a move of it that copies is
superseded (Table 9.7). A SCRATCH version is discarded. An object of which a row was lost once its commit had begun becomes
LOST as it flips (R293, R297; DEDUCED, assumption 57). -/
def State.flipUse (s : State) (a : Nat) (u : ObjUse) : State :=
  match u.staged, s.tongs.byHandle u.handle with
  | some v, some o =>
    let drop := fun (s : State) =>
      (s.modObj o.idx fun o => { o with stagedBy := o.stagedBy.filter fun b => b != a }).modCmd a fun c =>
        { c with objs := modFirst (fun x => x.handle == u.handle) (fun x => { x with staged := none }) c.objs }
    if u.role = 4 then drop (s.releaseUse a u)
    else if o.phase = .flip then s
    else
      let s := (s.giveUpMove o.idx 0x5A).mergeFlip o.idx a
      let s := (drop (s.flip o v a)).queuedEvict o.idx
      if u.lost then s.makeLost o.idx else s
  | _, _ => s

/-- A version has an extent in a slice of a die that satisfies `p`. -/
def Version.inDie (v : Version) (p : Nat → Bool) : Bool := v.tier == 0 && !v.press && v.wheres.any fun w => p (sliceDie (w / 8192))

/-- A command names an output with an extent, current or staged, in a die that satisfies `p`. -/
def State.outputIn (s : State) (c : Cmd) (p : Nat → Bool) : Bool :=
  c.objs.any fun u => u.staged.any fun v =>
    u.role != 4 && (v.inDie p || (s.tongs.byHandle u.handle).any fun o => o.cur.inDie p)

/-- A command names an output homed in the slices of an UNREACHABLE die: no commit of it completes (R27). -/
def State.outputGone (s : State) (c : Cmd) : Bool := s.outputIn c fun d => (s.die d).st == .unreachable

/-- A mirror of a command's COMMIT record is not acknowledged. -/
def State.commitUnacked (s : State) (a : Nat) : Bool := s.cmd.mirrors.any fun m => m.why == .commit a

/-- A commit goes on: once its record is durable, and for a group once D is reached, the outputs flip, and when all
have flipped the command is COMPLETE (R365, R375). The Lid looks at each commit (R404). -/
def State.continueCommit (s : State) (a : Nat) : State :=
  match s.getCmd a with
  | none => s
  | some c =>
    let due := match c.group with
      | none => true
      | some g => match g.decision with
        | some d => decide (d.beat ≤ s.now)
        | none => false
    if c.stage ≠ .committing ∨ s.commitUnacked a ∨ !due ∨ s.outputGone c then s
    else
      let s := c.objs.foldl (fun s u => s.flipUse a u) s
      match s.getCmd a with
      | none => s
      | some c' =>
        if c'.objs.any fun u => u.staged.isSome then s
        else
          let beat := match c.group with
            | none => c.commitBeat
            | some g => (g.decision.map (·.beat)).getD 0
          let s := s.cmdCnt (if c.group.isNone then 2 else 3)
          let s := s.resolve a (c'.finalReply 3 0 0 0 0 false beat [])
          s.onCommit c.part (s.flipsMarker c) c.group.isSome

/-- Commits that wait for a flip of an object go on (R261). -/
def State.continueCommits (s : State) : State :=
  (s.cmd.cmds.filter fun c => c.stage == .committing).foldl (fun s c => s.continueCommit c.acceptNo) s

/-- The output list of a command (Table 12.7). -/
def Cmd.outs (c : Cmd) : List OutEntry :=
  c.objs.filterMap fun u => u.staged.map fun v =>
    { handle := u.handle, role := u.role, extents := v.wheres.length, charge := v.charge, mapAddr := v.mapAddr }

end Sys2Proof.Machine
end

