-- ==== Sys2Proof/Machine/Start.lean ====
section
/-!
DEFINITION. How an attempt starts: the choice of the next command of a partition, staging, loading of the cores, and
the state of a core at command start (R71, R72, R110, R111, R351 to R353, R362, R363).
-/

namespace Sys2Proof.Machine

open Sys2Proof

/-! ## The header of a command message (Table 12.1) -/

/-- The header of Table 12.1. -/
structure MsgHdr where
  kind : Nat
  rerunMax : Nat
  client : Nat
  part : Nat
  job : Nat
  nobj : Nat
  req : Nat
  progHandle : Nat
  progLen : Nat
  progOffset : Nat
  slen : Nat
  plen : Nat
  arg : Nat
  arg2 : Nat
deriving DecidableEq, Repr

/-- The header of a message. -/
def msgHdr (m : List Byte) : MsgHdr :=
  { kind := leAt m 0 1, rerunMax := leAt m 1 1, client := leAt m 2 1 % 64, part := leAt m 3 1 % 16, job := leAt m 4 2
    nobj := leAt m 6 2, req := leAt m 8 8, progHandle := leAt m 16 4, progLen := leAt m 20 4, progOffset := leAt m 24 8
    slen := leAt m 32 2, plen := leAt m 34 2, arg := leAt m 40 8, arg2 := leAt m 48 8 }

/-- The object entries of a message (Table 12.3): handle, the bits that must be 0, role. -/
def msgObjs (m : List Byte) : List (Nat × Nat × Nat) :=
  (List.range (msgHdr m).nobj).map fun i =>
    let e := leAt m (64 + 8 * i) 8
    (bitsOf e 63 32, bitsOf e 31 8, bitsOf e 7 0)

/-- The group schedule of a message. -/
def msgSched (m : List Byte) : List Byte := (m.drop (64 + 8 * (msgHdr m).nobj)).take (msgHdr m).slen

/-- The parameter block of a message. -/
def msgParams (m : List Byte) : List Byte := (m.drop (64 + 8 * (msgHdr m).nobj + (msgHdr m).slen)).take (msgHdr m).plen

/-! ## The next command of a partition (R351, R353) -/

/-- The core set of a partition. -/
def Part.hasCore (p : Part) (n : Nat) : Bool := bitOf (vget p.cores (n / 64)).toNat (n % 64)

/-- Cores of a partition that are in service and free (R351). -/
def State.partCores (s : State) (p : Nat) : List Nat :=
  (List.range 192).filter fun n => (s.part p).hasCore n && s.inService n

/-- The first unresolved command of a job (R353). -/
def State.jobHead (s : State) (p job : Nat) : Option Cmd := (s.jobCmds p job).head?

/-- The partition is reserved for a group command at the head of its job (R353). -/
def State.reserves (s : State) (c : Cmd) : Bool :=
  c.stage == .queued && match c.group with
    | some g => decide (g.base ≤ s.now + s.cmd.groupLead)
    | none => false

/-- A command at the head of its job can start now: it waits, its earliest start is reached, a group command is within
GROUP_LEAD of its start beat (R353; DEDUCED, assumption 35), and it is no rerun of a group, which starts by
RERUN_START (R375, R377). -/
def State.ableNow (s : State) (c : Cmd) : Bool :=
  c.stage == .queued && decide (c.notBefore ≤ s.now) && (c.group.isNone || (c.attempts == 0 && s.reserves c))

/-- Contexts of a partition in round-robin order, from the one after the last that started (R353). -/
def Part.ring (p : Part) : List Nat :=
  let js := p.ctxs.map (·.job)
  match p.lastJob with
  | none => js
  | some j =>
    let i := js.findIdx (· == j)
    if i < js.length then js.drop (i + 1) ++ js.take (i + 1) else js

/-- The command that the partition starts next (R353). -/
def State.nextCmd (s : State) (p : Nat) : Option Cmd :=
  let heads := (s.part p).ring.filterMap (s.jobHead p)
  match heads.find? s.reserves with
  | some c => if s.ableNow c then some c else none
  | none => heads.find? s.ableNow

/-- A partition can start a command: enabled, free, not held for restoration, not IN_DOUBT (R351, R376, R408). -/
def State.partFree (s : State) (p : Nat) : Bool :=
  (s.part p).enable && (s.part p).running.isNone && !(s.part p).heldRestore
    && !(s.cmd.cmds.any fun c => c.part == p && c.stage == .inDoubt) && s.beat.lock != .unlocked

/-! ## Loading a core (R71, R72, R110, R111) -/

/-- The program object of a command's message, or the code of the failed read (R72). -/
def State.progTarget (s : State) (c : Cmd) : Except Nat Obj :=
  let h := msgHdr c.message
  match s.tongs.byHandle h.progHandle with
  | none => .error 0x1E
  | some o =>
    if !o.readableBy c.part then .error 0x1E
    else if o.st = .lost then .error 0x59
    else if o.size < h.progOffset + h.progLen then .error 0x1D
    else .ok o

/-- The Ladle's read of a program image: one fetch of its bytes to Skillet address 0, in the name of PC 0 (R71, R72). -/
def programXfer (id : Nat) (h : MsgHdr) : XferSt :=
  { id := id, base := 0, count := 1, nextDesc := 1, prog := true
    e := { q := 3, op := 1, h := {}, b := 0, pc := 0, null := false, regs := Vector.replicate 32 0 }
    descs := [{ idx := 0, d := { (default : Desc) with handle := h.progHandle, offset := h.progOffset, len0 := h.progLen } }] }

/-- The program load of a core begins, after the clearing or at once: the read fails, or its granules issue on the core's
tags (R71, R72, R111). -/
def State.startLoad (s : State) (n : Nat) : State :=
  match (s.core n).loading.bind fun l => s.getCmd l.acceptNo with
  | none => s
  | some c =>
    let s := s.modCore n fun k => { k with loading := k.loading.map fun l => { l with clearing := false, started := true } }
    let h := msgHdr c.message
    match s.progTarget c with
    | .error code => s.raiseFault n 3 code 0 (.object h.progHandle h.progOffset)
    | .ok _ => (s.modSm n fun m => { m with xfers := m.xfers ++ [programXfer m.nextId h], nextId := m.nextId + 1 }).pumpN n

/-- A core leaves IDLE for a command: a periodic BIST slice on it is abandoned and counted, and the core counts as reset
(R307); its idle period ends (R306). -/
def State.leaveIdle (s : State) (n : Nat) : State :=
  let ran := s.integ.slices.any fun x => x.1 == n
  let s := s.modInteg fun i =>
    { i with slices := i.slices.filter fun x => x.1 != n, skipped := i.skipped.filter fun m => m != n }
  if ran then (s.rgnCnt (coreSlice n) 13 1).modCore n fun c => { c with lastJob := none } else s

/-- A core is given to a command: it enters LOADING; a command of another job than the last one clears the stores
first, and otherwise their contents are undefined (R110, R111). -/
def State.loadCore (s : State) (c : Cmd) (n : Nat) : State :=
  let (k, s) := (s.leaveIdle n).fresh
  let h := msgHdr c.message
  let clear := (s.core n).lastJob != some (c.part, c.job)
  let s := s.modCore n fun x =>
    { x with
      st := .loading, cmd := some c.acceptNo, identity := c.identity, epoch := c.epoch, part := c.part
      group := c.group.isSome, nrdv := (c.group.map (·.nrdv)).getD 0, lastK := none
      progLen := h.progLen, paramLen := h.plen, lastJob := some (c.part, c.job)
      loading := some { acceptNo := c.acceptNo, clearing := clear }
      skillet := Mem.undef k, ibuf := [], noProg := 0, progress := false
      wins := vmap x.wins fun w => { w with isOpen := false }
      me := { x.me with
        shape := 0, active := Vector.replicate 4 {}, shadow := Vector.replicate 4 {}
        buf := Vector.replicate 2 (Mem.undef k), scale := Vector.replicate 2 (Mem.undef k), acc := Mem.undef k }
      ve := { x.ve.reseed n (toW c.identity) with slots := Vector.replicate 8 {} } }
  if clear then s else s.startLoad n

/-- The clearing of a core's stores (R111): the scale side is cleared with its input buffer, which it belongs to (R149;
DEDUCED, assumption 43). -/
def CoreSt.cleared (c : CoreSt) : CoreSt :=
  { c with
    skillet := Mem.zero
    me := { c.me with buf := Vector.replicate 2 Mem.zero, scale := Vector.replicate 2 Mem.zero, acc := Mem.zero }
    sklCnt := bump c.sklCnt 1 }

/-- The state of Table 3.2; the image is in place, and the parameter block is put beside it (R71). -/
def CoreSt.atStart (c : CoreSt) (params : List Byte) : CoreSt :=
  { c with
    skillet := c.skillet.writeN 0x100000 params
    g := vset (vset (Vector.replicate 32 0) 1 0x100000) 2 (toW params.length)
    t := Vector.replicate 64 0
    p := Vector.replicate 8 false
    pc := 0
    calls := []
    races := Vector.replicate 4 {}
    cur := none
    loading := none }

/-! ## Starting an attempt (R351, R362, R363) -/

/-- Every core of an attempt is loaded once staging is complete (R362); a program read that fails as it begins ends the
attempt before the cores after it are loaded (R72). -/
def State.loadCores (s : State) (a : Nat) : State :=
  match s.getCmd a with
  | none => s
  | some c =>
    let s := s.modCmd a fun c => { c with stage := .running }
    c.cores.foldl (fun s n => if (s.getCmd a).any fun c => c.stage == .running then s.loadCore c n else s) s

/-- The staging of a command fails for one of its objects (R283, R362): no rerun follows, and a group participant votes FAIL
(R372). -/
def State.failStaging (s : State) (a h code : Nat) : State :=
  let s := (s.doneWait a).logEv { code := code, unit := 0xF0, acceptNo := a, addr := if h = 0 then .none else .object h 0 }
  (s.voteNeg a true code 0).stopAttempt a code 0 0 s.pkgIdField

/-- The copy of a command's OUT_COPY object cannot read or write byte `off`: the attempt ends as for an engine's access, and one that
met an unmapped host page is HELD (R28, R216, R282, R362; DEDUCED, assumption 57). -/
def State.copyFails (s : State) (a h code off : Nat) : State :=
  let s := s.logEv { code := code, unit := 0xF0, acceptNo := a, addr := .object h off }
  let s := if code = 0x1C then s.modCmd a fun c => { c with heldAt := (h, off) } else s
  (s.voteNeg a false code 0).stopAttempt a code 0 0 s.pkgIdField

/-- A use is to be allocated a staged version. -/
def ObjUse.unstaged (u : ObjUse) : Bool := u.role != 0 && u.staged.isNone

/-- The staged version of one use: whether it is allocated, waits, or fails (R362, R364). -/
def State.stageUse (s : State) (a : Nat) (already : Bool) (u : ObjUse) : Alloc × State :=
  if !u.unstaged then (.ok, s)
  else match s.tongs.byHandle u.handle with
    | none => (.fail 0x1E, s)
    | some o =>
      match s.ask already { client := o.owner, tier := o.cur.tier, press := o.cur.press, named := false, n := o.extents } with
      | (.ok, s) =>
        let (k, s) := (s.doneWait a).fresh
        let (v, s) := s.newVersion o.owner o.cur.tier o.cur.press o.cur.place none o.extents (Mem.undef k)
        let s := s.modObj o.idx fun o => { o with stagedBy := o.stagedBy ++ [a] }
        let put := fun (x : ObjUse) => { x with staged := some v, copied := x.role != 2, begun := false, recon := none, lost := false }
        (.ok, s.modCmd a fun c => { c with objs := modFirst (fun x => x.handle == u.handle) put c.objs })
      | r => r

/-- Staging over a list of uses, up to the first that waits or fails, with its handle. `already` says that the first one to be
allocated has waited. -/
def State.stageUses (a : Nat) (already : Bool) : List ObjUse → State → Nat × Alloc × State
  | [], s => (0, .ok, s)
  | u :: us, s =>
    match s.stageUse a already u with
    | (.ok, s) => State.stageUses a (already && !u.unstaged) us s
    | r => (u.handle, r)

/-- The copies of a command's OUT_COPY objects begin (R362); one of a LOST object fails (R282). -/
def State.beginCopies (s : State) (a : Nat) : State :=
  match s.getCmd a with
  | none => s
  | some c =>
    (c.objs.filter fun u => !u.copied && !u.begun).foldl (fun s u =>
      if (s.tongs.byHandle u.handle).any fun o => o.st == .lost then
        if (s.getCmd a).any fun c => c.stage == .staging then s.copyFails a u.handle 0x59 0 else s
      else
        (s.modCmd a fun c =>
          { c with objs := modFirst (fun x => x.handle == u.handle) (fun x => { x with begun := true }) c.objs }).beginCopy
            (.stage a u.handle)) s

/-- Staging goes on: it waits, fails, waits for the copies of OUT_COPY objects, or the cores load (R362). -/
def State.goStage (s : State) (a : Nat) (already : Bool) : State :=
  match s.getCmd a with
  | none => s
  | some c =>
    if c.stage ≠ .staging then s
    else match State.stageUses a already c.objs s with
      | (h, .fail code, s) => s.failStaging a h code
      | (_, .wait code, s) => s.waitAlloc a code
      | (_, .ok, s) =>
        let s := s.doneWait a
        if (s.getCmd a).any fun c => c.objs.any fun u => !u.copied then s.beginCopies a else s.loadCores a

/-- The command's identity (R363). -/
def State.identityOf (s : State) (c : Cmd) : Nat :=
  match c.group with
  | some g => g.gid
  | none => s.cfg.pkgId * 2 ^ 49 + c.acceptNo % 2 ^ 49

/-- An attempt of a command starts on its partition (R351, R362, R363). -/
def State.startAttempt (s : State) (c : Cmd) : State :=
  let a := c.acceptNo
  let cores := s.partCores c.part
  let first := c.attempts == 0
  let s := s.modCmd a fun c =>
    { c with
      stage := .staging, attempts := c.attempts + 1, identity := s.identityOf c, cores := cores, ended := []
      startEdge := if first then s.edge else c.startEdge }
  let s := if first then s.cliCnt c.client 4 (s.edge - c.acceptEdge) else s
  let s := s.modPart c.part fun p => { p with running := some a, lastJob := some c.job }
  s.goStage a false

end Sys2Proof.Machine
end

