-- ==== Sys2Proof/Machine/Objects.lean ====
section
/-!
DEFINITION. Object requests: their checks, CREATE to POOL_ADD, the order in which they start, and what an allocation
that waits does when units are released (R246 to R256, R270, R279, R504).
-/

namespace Sys2Proof.Machine

open Sys2Proof

/-! ## The home entry and its locators as bytes (Tables 9.2 and 9.3) -/

/-- The 64-byte entry of an object (Table 9.2). -/
def Obj.entry (o : Obj) : List Byte :=
  let st := match o.st with
    | .creating => 1
    | .resident => 2
    | .lost => 3
  let ph := match o.phase with
    | .none => 0
    | .copy => 1
    | .flip => 2
  let q := o.evictQ.map (·.1)
  leBytes 4 o.handle ++ [toB st]
    ++ [toB (o.cur.tier + 4 * b2n o.cur.press + 8 * b2n o.pin + 16 * b2n o.secure + 32 * b2n o.evictable)]
    ++ [toB o.owner, toB o.part] ++ leBytes 2 o.grants ++ [toB o.cur.place]
    ++ [toB (ph + 4 * o.target + 16 * b2n q.isSome + 32 * q.getD 0)]
    ++ leBytes 4 (b2n !o.stagedBy.isEmpty) ++ leBytes 8 o.size ++ leBytes 4 o.extents ++ leBytes 4 o.cur.charge
    ++ leBytes 8 o.cur.mapAddr ++ leBytes 8 o.lastUse ++ leBytes 8 o.version ++ leBytes 8 0

/-- The locator of extent `i` of an object (Table 9.3). -/
def Obj.locator (o : Obj) (i : Nat) : Nat := o.cur.tier * 2 ^ 62 + b2n o.cur.press * 2 ^ 61 + o.cur.wheres.getD i 0

/-! ## Refusals (R252, R253, R504) -/

/-- Fields that a request may not hold: code 0x54 (R252, R253, R263, R279, Table 9.4). -/
def State.objBad (s : State) (c : Cmd) (body : List Byte) : Bool :=
  let r := objReq body
  let zero := (body.drop 24).any (· != 0) || decide (64 ≤ r.flags) || decide (16 ≤ r.part)
  let aligned := r.hostAddr % extentBytes == 0
  let home := (s.tongs.byHandle r.handle).map (·.cur.tier)
  zero || match r.op with
    | 0x01 =>
      r.tier == 3 || decide (0x11 < r.place) || r.handle != 0 || r.arg == 0 || decide (2 ^ 36 < r.arg)
        || (r.press && r.tier == 0) || (r.tier == 2 && !r.press && !aligned)
    | 0x03 =>
      r.tier == 3 || decide (0x11 < r.place) || (r.press && r.tier == 0) || (r.tier == 2 && !r.press && !aligned)
    | 0x04 => r.tier == 0 || r.tier == 3 || (home.any fun h => decide (r.tier ≤ h))
    | 0x0A => !aligned || r.handle != 0 || decide (524288 < s.tongs.pool.length + r.arg)
    | op => op == 0 || decide (0x0A < op) || (c.message.length == 0)

/-- The client may not make the request: code 0x56 (R253). -/
def notOwner (c : Cmd) (op : Nat) (o : Obj) : Bool :=
  o.owner != c.client && !(op == 0x08 && bitOf o.grants c.part)

/-- The refusal of a request on an existing object before those particular to it, in the order of R504. -/
def State.objRefusal (s : State) (c : Cmd) (body : List Byte) : Option Nat :=
  let r := objReq body
  if s.objBad c body then some 0x54
  else if r.op = 0x01 ∨ r.op = 0x0A then none
  else match s.tongs.byHandle r.handle with
    | none => some 0x50
    | some o =>
      if notOwner c r.op o then some 0x56
      else if o.st = .lost ∧ !([0x08, 0x07, 0x02] : List _).contains r.op then some 0x59
      else none

/-! ## CREATE (R254, R255) -/

/-- The object of an open CREATE. -/
def State.createdBy (s : State) (c : Cmd) : Option Obj :=
  s.tongs.objs.find? fun o => o.st == .creating && o.version == c.acceptNo && o.owner == c.client

/-- A CREATE completes: one write makes the entry RESIDENT (R255, step 3). -/
def State.finishCreate (s : State) (a : Nat) : State :=
  match s.getCmd a with
  | none => s
  | some c => match s.createdBy c with
    | none => s
    | some o =>
      let s := s.modObj o.idx fun o => { o with st := .resident, version := 0, lastUse := s.now }
      (s.tngCnt 0 1).doneObj a o.handle []

/-- The entry of a CREATE that failed is FREE again (R255). -/
def State.dropCreate (s : State) (c : Cmd) : State :=
  match s.createdBy c with
  | none => s
  | some o => s.modTongs fun t => { t with objs := t.objs.filter fun x => x.idx != o.idx }

/-- A CREATE goes on to its allocation (R255, step 2): it waits, fails, is filled, or completes. -/
def State.goCreate (s : State) (a : Nat) (already : Bool) : State :=
  match s.getCmd a with
  | none => s
  | some c => match s.createdBy c with
    | none => s
    | some o =>
      let r := c.objReq
      let n := o.extents
      let raw := r.tier == 2 && !r.press
      let ask : Ask := { client := c.client, tier := r.tier, press := r.press, named := raw, n := n }
      let ans := match s.tierRefusal r.tier r.press n with
        | some code => (Alloc.fail code, s)
        | none =>
          if r.press ∧ (s.quota c.client r.tier).limit = 0 then (Alloc.fail 0x51, s.tngCnt 12 1)
          else s.ask already { ask with n := if r.press then 0 else n }
      match ans with
      | (.fail code, s) => ((s.doneWait a).failObj a code 0).dropCreate c
      | (.wait code, s) => s.waitAlloc a code
      | (.ok, s) =>
        let (v, s) := (s.doneWait a).newVersion c.client r.tier r.press r.place (some r.hostAddr) n Mem.zero
        let s := if r.press then s.uncharge c.client r.tier n else s
        let v := if r.press then { v with charge := 0 } else v
        let s := s.modObj o.idx fun o => { o with cur := v }
        if r.press ∨ raw then s.finishCreate a else s

/-- CREATE starts: it takes a FREE entry, whose GEN advances (R247, R249, R255, R503). One replayed after a restoration takes
the handle of its DONE record (Table 13.10). -/
def State.startCreate (s : State) (c : Cmd) : State :=
  let a := c.acceptNo
  let r := c.objReq
  let used := s.tongs.objs.map fun o => o.idx - 1
  let (e, s) := match c.redo with
    | some h => (some (h % 2 ^ 20 - 1), s)
    | none => if used.length < 1048575 then s.chooseFree 1048575 used (fun _ => false) 0 else (none, s)
  match e with
  | none => s.failObj a 0x58 0
  | some e =>
    let idx := e + 1
    let g := alGet s.tongs.gens idx 0 + 1
    let g := match c.redo with
      | some h => h / 2 ^ 20
      | none => if 4095 < g then 1 else g
    let v : Version :=
      { tier := r.tier, press := r.press, place := r.place, wheres := [], charge := 0, mapAddr := 0, hostAddr := r.hostAddr
        content := Mem.zero }
    let o : Obj :=
      { idx := idx, gen := g, st := .creating, owner := c.client, part := c.part, pin := bitOf r.flags 3
        secure := bitOf r.flags 4, evictable := bitOf r.flags 5, size := r.arg, cur := v, version := a }
    let s := s.modTongs fun t => { t with objs := t.objs ++ [o], gens := alSet t.gens idx g }
    s.goCreate a false

/-! ## Allocations that go on (R266) -/

/-- An allocation that waits tries again (R266). -/
def State.retryWait (s : State) (w : AllocWait) : State :=
  if (s.tongs.waits.any fun x => x.is w.acceptNo w.auto) = false then s
  else match w.auto with
    | some (idx, kind) => (s.goAuto idx kind true).unlocked idx
    | none => match s.getCmd w.acceptNo with
      | none => s.doneWait w.acceptNo
      | some c =>
        if c.kind = 3 then
          if c.objReq.op = 0x01 then s.goCreate w.acceptNo true else (s.goMove w.acceptNo true).unlocked (s.moveIdx c)
        else s.goStage w.acceptNo true

/-! ## The other requests (R252, R256, R263, R270, R279) -/

/-- A command that is not resolved names an object (R256). -/
def State.named (s : State) (h : Nat) : Bool :=
  s.cmd.cmds.any fun c => c.kind != 3 && c.stage != .resolved
    && ((c.use h).isSome || (msgHdr c.message).progHandle == h)

/-- FREE starts and completes, or is refused (R256). A far page withheld for the object goes to its test (R296). -/
def State.startFree (s : State) (c : Cmd) (o : Obj) : State :=
  let a := c.acceptNo
  if o.grants ≠ 0 ∨ o.stagedBy ≠ [] ∨ s.named o.handle = true then s.failObj a 0x57 0
  else if o.phase ≠ .none then s.failObj a 0x53 o.target
  else
    let pages := (s.integ.farWithheld.filter fun p => p.2 == o.idx).map (·.1)
    let s := (s.release o.owner o.handle o.cur none).mergeDrop o.idx none
    let s := s.invalidate o.idx
    let s := s.modTongs fun t => { t with objs := t.objs.filter fun x => x.idx != o.idx }
    let s := s.modInteg fun i =>
      { i with tests := i.tests ++ pages.map fun p => { loc := .farPage p, running := true } }
    (s.tngCnt 1 1).doneObj a 0 []

/-- MOVE starts, is refused, or changes nothing and completes (R261, R263). -/
def State.startMoveReq (s : State) (c : Cmd) (o : Obj) : State :=
  let r := c.objReq
  let same := r.tier == o.cur.tier && r.press == o.cur.press && r.place == o.cur.place
    && !(r.tier == 2 && !r.press && r.hostAddr != o.cur.wheres.headD 0 * extentBytes)
  if o.phase ≠ .none then s.failObj c.acceptNo 0x53 o.target
  else if same then s.doneObj c.acceptNo o.cur.tier []
  else s.goMove c.acceptNo false

/-- EVICT starts, is queued, or is refused (R261, R263). -/
def State.startEvictReq (s : State) (c : Cmd) (o : Obj) : State :=
  let a := c.acceptNo
  if o.pin then s.failObj a 0x5B 0
  else if o.phase = .none then s.goMove a false
  else if o.evictQ.isSome then s.failObj a 0x53 o.target
  else (s.modObj o.idx fun o => { o with evictQ := some (c.objReq.tier, a) }).tngCnt 9 1

/-- SETFLAGS (R252). -/
def State.startSetflags (s : State) (c : Cmd) (o : Obj) : State :=
  let f := c.objReq.flags
  (s.modObj o.idx fun o => { o with pin := bitOf f 3, secure := bitOf f 4, evictable := bitOf f 5 }).doneObj c.acceptNo 0 []

/-- GRANT and REVOKE start: GRANTS changes, and the invalidations are outstanding (R270). -/
def State.startGrants (s : State) (c : Cmd) (o : Obj) (set : Bool) : State :=
  let p := c.objReq.part
  let g := if set then (if p = o.part then o.grants else o.grants ||| 2 ^ p)
    else if bitOf o.grants p then o.grants - 2 ^ p else o.grants
  let s := (s.modObj o.idx fun o => { o with grants := g }).invalidate o.idx
  (s.modTongs fun t => { t with invals := t.invals ++ [c.acceptNo] }).tngCnt 24 1

/-- QUERY (R252). -/
def State.startQuery (s : State) (c : Cmd) (o : Obj) : State := s.doneObj c.acceptNo 0 o.entry

/-- MAP: up to 480 locators (R252). -/
def State.startMap (s : State) (c : Cmd) (o : Obj) : State :=
  let first := c.objReq.arg
  let n := min 480 (o.extents - first)
  s.doneObj c.acceptNo 0 ((List.range n).flatMap fun i => leBytes 8 (o.locator (first + i)))

/-- POOL_ADD (R279): allocations that wait may proceed (R266). -/
def State.startPoolAdd (s : State) (c : Cmd) : State :=
  let r := c.objReq
  let s := s.modTongs fun t =>
    { t with pool := t.pool ++ (List.range r.arg).map fun i => r.hostAddr / extentBytes + i }
  let s := s.doneObj c.acceptNo s.tongs.pool.length []
  s.tongs.waits.foldl State.retryWait s

/-- An accepted object request starts (R252, R504). -/
def State.startObject (s : State) (a : Nat) : State :=
  match s.getCmd a with
  | none => s
  | some c =>
    let s := s.modCmd a fun c => { c with stage := .object, startEdge := s.edge, attempts := 1 }
    let s := s.cliCnt c.client 4 (s.edge - c.acceptEdge)
    let r := c.objReq
    match s.objRefusal c (c.message.drop (64 + 8 * leAt c.message 6 2)) with
    | some code => s.failObj a code 0
    | none =>
      if r.op = 0x01 then s.startCreate c
      else if r.op = 0x0A then s.startPoolAdd c
      else match s.tongs.byHandle r.handle with
        | none => s
        | some o => match r.op with
          | 0x02 => s.startFree c o
          | 0x03 => s.startMoveReq c o
          | 0x04 => s.startEvictReq c o
          | 0x05 => s.startSetflags c o
          | 0x06 => s.startGrants c o true
          | 0x07 => s.startGrants c o false
          | 0x08 => s.startQuery c o
          | _ => s.startMap c o

/-! ## Order of requests, and allocations that go on (R252, R266) -/

/-- A request that must complete before the next one starts is open (R252). -/
def State.objectsBlocked (s : State) : Bool :=
  s.cmd.cmds.any fun c => c.kind == 3 && c.stage == .object && c.objReq.op != 0x03 && c.objReq.op != 0x04

/-- Accepted requests start in acceptance order (R252). -/
def State.pumpObjects : Nat → State → State
  | 0, s => s
  | fuel + 1, s =>
    if s.objectsBlocked then s
    else match s.cmd.cmds.find? fun c => c.kind == 3 && c.stage == .queued with
      | none => s
      | some c => State.pumpObjects fuel (s.startObject c.acceptNo)

/-- Requests that wait, as a bound for pumpObjects. -/
def State.goObjects (s : State) : State := State.pumpObjects (s.cmd.cmds.length + 1) s

/-- Units were released: allocations that wait try again in the order in which they began to (R266), and requests
behind them start. -/
def State.retryWaits (s : State) : State := (s.tongs.waits.foldl State.retryWait s).goObjects

/-- A commit goes on, and allocations that wait for what it releases (R266, R365). -/
def State.goCommit (s : State) (a : Nat) : State :=
  let s := s.continueCommit a
  if s.tongs.waits = [] then s else s.retryWaits

/-- An allocation that waits fails at EVICT_WAIT with its code; an eviction that waits is abandoned (R266). -/
def State.timeoutWait (s : State) (w : AllocWait) : State :=
  let a := w.acceptNo
  match w.auto with
  | some (idx, _) => (((s.tngCnt 12 1).giveUpAuto idx).unlocked idx).goObjects
  | none => match s.getCmd a with
    | none => s.doneWait a
    | some c =>
      let s := s.tngCnt 12 1
      if c.kind = 3 ∧ c.objReq.op = 0x01 then (((s.doneWait a).failObj a w.code 0).dropCreate c).goObjects
      else if c.kind = 3 then ((s.giveUpWait (s.moveIdx c) a w.code).unlocked (s.moveIdx c)).goObjects
      else s.failStaging a (((c.objs.find? ObjUse.unstaged).map (·.handle)).getD 0) w.code

end Sys2Proof.Machine
end

