-- ==== Sys2Proof/Machine/Accept.lean ====
section
/-!
DEFINITION. Command messages: their checks, acceptance, duplicates, and the messages that are not journaled (R352 to
R360, R367, R377, R378).
-/

namespace Sys2Proof.Machine

open Sys2Proof

/-! ## The form of a message (R354, R355, R367) -/

/-- The group schedule of Table 12.10. -/
def groupOf (b : List Byte) : Group :=
  { gid := leAt b 0 8, start := leAt b 8 8, boxLo := leAt b 16 2, boxHi := leAt b 18 2, nrdv := leAt b 20 2
    coordPartner := leAt b 22 2, rerunDelay := leAt b 24 4, base := leAt b 8 8
    entries := (List.range (leAt b 20 2)).map fun k =>
      let e := leAt b (64 + 8 * k) 8
      (bitsOf e 31 0, bitsOf e 35 32) }

/-- Offsets rise strictly. -/
def rising : List Nat → Bool
  | a :: b :: r => decide (a < b) && rising (b :: r)
  | _ => true

/-- The schedule is refused: code 0x40, detail 5 (R367). -/
def State.schedBad (s : State) (b : List Byte) : Bool :=
  let g := groupOf b
  decide (b.length < 64) || b.length != 64 + 8 * g.nrdv || (b.drop 28).take 36 != List.replicate 36 0
    || g.nrdv == 0 || decide (256 < g.nrdv) || decide (2 ^ 14 ≤ g.boxLo) || decide (2 ^ 14 ≤ g.boxHi)
    || decide (g.gid < 2 ^ 63) || !(List.range 4).all (fun k => decide (coord g.boxLo k ≤ coord g.boxHi k))
    || !inBox g.boxLo g.boxHi s.cfg.pkgId || !rising (g.entries.map (·.1)) || (g.entries.getLastD (0, 0)).2 != 0
    || decide (g.rerunDelay < 4096)
    || (List.range g.nrdv).any fun k => decide (2 ^ 36 ≤ leAt b (64 + 8 * k) 8)

/-- The message is malformed: the detail of code 0x40 (R355, Table 12.12). -/
def State.malformed (s : State) (m : List Byte) : Option Nat :=
  let h := msgHdr m
  if h.kind = 0 ∨ 6 < h.kind then some 2
  else if m.length ≠ 64 + 8 * h.nobj + h.slen + h.plen ∨ 64 ≤ leAt m 2 1 ∨ 16 ≤ leAt m 3 1 ∨ leAt m 36 4 ≠ 0
      ∨ leAt m 56 8 ≠ 0 ∨ (h.slen ≠ 0 ∧ h.kind ≠ 2) ∨ (h.kind = 3 ∧ h.plen ≠ 64) then some 1
  else if 64 < h.nobj ∨ (msgObjs m).any (fun e => e.2.1 != 0 || decide (4 < e.2.2)) = true then some 3
  else if h.kind ≤ 2 ∧ (h.progLen % 16 ≠ 0 ∨ h.progLen < 16 ∨ 2 ^ 20 < h.progLen ∨ h.progOffset % 64 ≠ 0) then some 4
  else if h.kind = 2 ∧ s.schedBad (msgSched m) = true then some 5
  else none

/-- The object list is refused: code and detail (R355). -/
def State.objectsBad (s : State) (m : List Byte) : Option (Nat × Nat) :=
  let h := msgHdr m
  let es := msgObjs m
  let hs := es.map (·.1)
  let all := hs ++ [h.progHandle]
  if all.any fun x => (s.tongs.byHandle x).isNone then some (0x50, 0)
  else if hs.eraseDups.length ≠ hs.length
      ∨ (es.any fun e => e.2.2 != 0 && !(s.tongs.byHandle e.1).any fun o => o.part == h.part) = true then some (0x40, 3)
  else if ((s.tongs.byHandle h.progHandle).any fun o => o.readableBy h.part) = false then some (0x40, 4)
  else if all.any fun x => (s.tongs.byHandle x).any fun o => o.st == .lost then some (0x59, 0)
  else none

/-- The refusal of a message that is well formed and no duplicate: code and detail. Without a valid package ID every
command is refused with 0x74 (R20); then in the order of R355. -/
def State.refusal (s : State) (m : List Byte) : Option (Nat × Nat) :=
  let h := msgHdr m
  let p := s.part h.part
  if !s.cfg.valid then some (0x74, 0)
  else match if h.kind ≤ 2 then s.objectsBad m else none with
  | some r => some r
  | none =>
    if !p.enable then some (0x41, 4)
    else if s.beat.lock = .unlocked then some (0x31, 0)
    else if h.kind = 2 ∧ s.beat.lock ≠ .timeLocked then some (0x30, 0)
    else if h.kind ≤ 3 then
      if s.cfg.stale then some (0x71, 0)
      else if s.cmd.replaying ∨ !s.cmd.mirrors.isEmpty then some (0x4F, 0)
      else if h.kind ≤ 2 ∧ p.ctxs.all (fun x => x.job != h.job) = true ∧ 4 ≤ p.ctxs.length then some (0x41, 1)
      else if h.kind ≤ 2 ∧ 256 ≤ (s.jobCmds h.part h.job).length then some (0x41, 2)
      else if 2 ^ 27 < s.cmd.used + 64 + roundUp m.length 64 then some (0x41, 3)
      else none
    else if s.cmd.replaying then some (0x4F, 0)
    else none

/-! ## Acceptance (R357, R358) -/

/-- A duplicate is answered with what was answered before (R357). One whose mirror is still out gets no answer
(R358). -/
def State.duplicate (s : State) (tag : Nat) (c : Cmd) : State :=
  if c.stage = .mirroring then s
  else
    let s := s.cmdCnt 11
    let s := s.reply tag { kind := 1, attempts := min c.attempts 255, dup := true, req := c.req, acceptNo := c.acceptNo }
    match c.final with
    | some r => s.reply tag { r with dup := true }
    | none => s

/-- The message is accepted: ACCEPT is sent. A group command whose first rendezvous is too near makes the package vote
ABORT (R65); the count compared is that of the acceptance, after the mirror (DESIGN CHOICE, assumption 36). An object
request may start (R252). -/
def State.accepted (s : State) (a : Nat) : State :=
  match s.getCmd a with
  | none => s
  | some c =>
    let s := s.modCmd a fun c => { c with stage := .queued }
    let s := (s.cmdCnt 0).cliCnt c.client 0 1
    let s := s.reply c.tag { kind := 1, req := c.req, acceptNo := a }
    if c.kind = 3 then s.goObjects
    else match c.group with
      | none => s
      | some g =>
        if g.rk 0 < s.now + 256 then
          let s := s.logEv { code := 0x38, unit := 0xF2, acceptNo := a }
          let s := s.modCmd a fun c => { c with attempts := 1, startEdge := s.edge, identity := g.gid, stage := .aborting, code := 0x38 }
          (s.voteNeg a false 0x38 0).endAttempt a
        else s

/-- The command that a message asks for, as it is accepted with a number (R354, R358, R363). -/
def State.newCmd (s : State) (tag a : Nat) (m : List Byte) : Cmd :=
  let h := msgHdr m
  { acceptNo := a, kind := h.kind, tag := tag, message := m, client := h.client, part := h.part, job := h.job, req := h.req
    rerunMax := if h.rerunMax = 255 then s.cmd.rerunDefault else h.rerunMax
    stage := .mirroring, epoch := 1, acceptEdge := s.edge
    objs := if h.kind ≤ 2 then (msgObjs m).map fun e => { handle := e.1, role := e.2.2 } else []
    group := if h.kind = 2 then some (groupOf (msgSched m)) else none }

/-- Steps 1 to 3 of R358 for a new message; without a partner, step 4 follows at once. -/
def State.takeIn (s : State) (tag : Nat) (m : List Byte) : State :=
  let h := msgHdr m
  let a := s.cmd.nextAccept
  let c := s.newCmd tag a m
  let s := s.modCmdU fun u =>
    { u with
      nextAccept := a + 1
      cmds := u.cmds ++ [c]
      clients := vmod u.clients h.client fun x => { x with nextReq := h.req + 1 } }
  let s := if h.kind ≤ 2 then
      s.modPart h.part fun p =>
        if p.ctxs.any fun x => x.job == h.job then p else { p with ctxs := p.ctxs ++ [{ job := h.job }] }
    else s
  let (now, s) := s.writeMirror (c.record 0 (.accept m)) (.accept a)
  if now then s.accepted a else s

/-- A group command rejected because the package is not TIME_LOCKED: a package that takes part in its group votes ABORT
(R45). -/
def State.notLocked (s : State) (m : List Byte) (code : Nat) : State :=
  if code = 0x30 then
    match s.cmdOfGroup (groupOf (msgSched m)).gid with
    | some c => s.abortGroup c.acceptNo 0x30
    | none => s
  else s

/-- A journaled message (R355, R357, R358, R440). -/
def State.message (s : State) (tag : Nat) (m : List Byte) : State :=
  let h := msgHdr m
  let rej := fun (c d : Nat) => s.reject tag h.client h.req c d
  let cl := vget s.cmd.clients h.client
  if !s.power.ready then rej 0x75 0
  else if m.length < 64 then rej 0x40 1
  else if !cl.valid ∨ cl.part ≠ h.part then rej 0x10 0
  else match s.malformed m with
    | some d => rej 0x40 d
    | none =>
      if h.req < cl.nextReq then
        match s.cmd.cmds.find? fun c => c.client == h.client && c.req == h.req with
        | some c => s.duplicate tag c
        | none => rej 0x40 6
      else match s.refusal m with
        | some (c, d) => (rej c d).notLocked m c
        | none => s.takeIn tag m

/-- A message that is not journaled, once its header is checked (R355). -/
def State.plainMessage (s : State) (tag : Nat) (m : List Byte) (act : State → State) : State :=
  let h := msgHdr m
  let rej := fun (c d : Nat) => s.reject tag h.client h.req c d
  let cl := vget s.cmd.clients h.client
  if m.length < 64 then rej 0x40 1
  else if !cl.valid ∨ cl.part ≠ h.part then rej 0x10 0
  else match s.malformed m with
    | some d => rej 0x40 d
    | none => match s.refusal m with
      | some (c, d) => rej c d
      | none => act s

/-! ## PREEMPT, RESUME, JOB_END (R377, R378) -/

/-- The command of a partition that a message names by its acceptance number. -/
def State.namedCmd (s : State) (h : MsgHdr) : Option Cmd :=
  (s.getCmd h.arg).bind fun c => if c.part = h.part ∧ c.stage ≠ .mirroring then some c else none

/-- PREEMPT acts by the state of the command (R377). A number that was given to a command of which no record is left names
a resolved command. -/
def State.preempt (s : State) (tag : Nat) (h : MsgHdr) : State :=
  match s.namedCmd h with
  | none =>
    let gone := decide (0 < h.arg) && decide (h.arg < s.cmd.nextAccept) && (s.getCmd h.arg).isNone
    s.reject tag h.client h.req 0x40 (if gone then 8 else 7)
  | some c =>
    let a := c.acceptNo
    let done := fun (s : State) => s.reply tag { kind := 3, req := h.req }
    if c.kind = 3 then s.reject tag h.client h.req 0x40 8
    else match c.stage with
      | .queued => done (s.modCmd a fun c => { c with notBefore := h.arg2 })
      | .aborting => s.modCmd a fun c => { c with notBefore := h.arg2, preempts := c.preempts ++ [(tag, h.req)] }
      | .staging | .running | .commitWait | .preparing =>
        let s := (s.cmdCnt 13).cliCnt c.client 6 1
        let s := s.modCmd a fun c => { c with notBefore := h.arg2, preempts := c.preempts ++ [(tag, h.req)] }
        let s := s.voteNeg a false 0x42 h.arg2
        s.killCmd a 0x42 1 0 s.pkgIdField
      | _ => s.reject tag h.client h.req 0x40 8

/-- RESUME reruns a HELD command (R378, Table 12.9). -/
def State.resume (s : State) (tag : Nat) (h : MsgHdr) : State :=
  match s.namedCmd h with
  | none => s.reject tag h.client h.req 0x40 8
  | some c =>
    if c.stage ≠ .held then s.reject tag h.client h.req 0x40 8
    else
      let s := s.reply tag { kind := 3, req := h.req }
      if c.rerunMax < c.attempts then s.failCmd c.acceptNo c.code c.sub c.cause c.causePkg true
      else (s.countRerun c 13).requeue c.acceptNo 0 none

/-- A command of a job is failed by JOB_END with DISCARD (R378); a group participant votes FAIL (R372). -/
def State.discard (s : State) (c : Cmd) : State :=
  if (c.stage = .queued ∧ c.attempts = 0) ∨ c.stage = .held then
    let s := s.logEv { code := 0x42, unit := 0xF1, sub := 3, acceptNo := c.acceptNo }
    (s.voteNeg c.acceptNo true 0x42 0).failCmd c.acceptNo 0x42 3 0 s.pkgIdField false
  else s

/-- JOB_END (R378). -/
def State.jobEnd (s : State) (tag : Nat) (h : MsgHdr) : State :=
  if (s.part h.part).ctxs.all fun x => x.job != h.job then s.reply tag { kind := 3, req := h.req }
  else
    let s := s.modPart h.part fun p =>
      { p with ctxs := modFirst (fun x => x.job == h.job) (fun x => { x with ending := x.ending ++ [(tag, h.req)] }) p.ctxs }
    let s := if bitOf h.arg 0 then (s.jobCmds h.part h.job).foldl State.discard s else s
    s.checkJob h.part h.job

end Sys2Proof.Machine
end

