-- ==== Sys2Proof/Machine/Ports.lean ====
section
/-!
DEFINITION. What every flit does that a port receives: its place in the byte stream, its corrected bytes, its ACK and its
credits (R315, R318, R319, R322, R325).
-/

namespace Sys2Proof.Machine

open Sys2Proof

/-! ## Lane sets (R323, R324) -/

/-- Lane `l` of a mask. -/
def laneBit (m l : Nat) : Bool := bitOf m l

/-- Lanes of a mask in ascending order. -/
def lanesOf (m : Nat) : List Nat := (List.range 8).filter (bitOf m)

/-- The mask without the lanes of another. -/
def maskMinus (a b : Nat) : Nat := sumL ((List.range 8).map fun i => if bitOf a i && !bitOf b i then 2 ^ i else 0)

/-- The mask with the lanes of another. -/
def maskPlus (a b : Nat) : Nat := sumL ((List.range 8).map fun i => if bitOf a i || bitOf b i then 2 ^ i else 0)

/-- The lanes common to two masks. -/
def maskBoth (a b : Nat) : Nat := sumL ((List.range 8).map fun i => if bitOf a i && bitOf b i then 2 ^ i else 0)

/-! ## The flit being received (R315, R318, R319, R325) -/

/-- The lane that carried byte `i` of the flit being received (R315). -/
def Port.laneAt (p : Port) (i : Nat) : Nat :=
  let ls := lanesOf p.active
  ls.getD ((256 * p.flitNo + i) % max 1 ls.length) 0

/-- Corrected bytes counted against their lanes (R318, R322). -/
def Port.corrections (p : Port) (pos : List Nat) : Port :=
  let ls := pos.map p.laneAt
  let per := (List.range 8).filterMap fun l =>
    let n := (ls.filter (· == l)).length
    if n = 0 then none else some (p.rxTotal, l, n)
  { p with
    corrected := per.foldl (fun v x => vmod v x.2.1 fun c => satAdd 32 c x.2.2) p.corrected
    window := (p.window.filter fun w => p.rxTotal ≤ w.1 + 1024) ++ per
    cnt := bumpBy p.cnt 2 pos.length }

/-- A flit is received on a port: it takes its place in the byte stream (R315). -/
def State.flitIn (s : State) (p : Nat) : State :=
  s.modPort p fun q => { q with flitNo := q.flitNo + 1, rxTotal := q.rxTotal + 1 }

/-- An ACK frees flits up to its SEQ (R319). -/
def Port.acked (p : Port) (h : FlitHdr) (edge : Nat) : Port :=
  if h.ackv && p.unacked.any fun f => f.seq == h.ack then
    { p with unacked := (p.unacked.dropWhile fun f => f.seq != h.ack).drop 1, lastAck := edge, nakRun := 0 }
  else p

/-- Credits returned by a flit (R325). -/
def Port.credited (p : Port) (h : FlitHdr) : Port :=
  { p with credits := vmod p.credits h.cvc fun c => c + h.ccount }

/-- What every flit that passes R318 does: its corrected bytes, its place in the stream, its ACK, its credits; then the port sends
what it can. -/
def State.flitHdr (s : State) (p : Nat) (h : FlitHdr) : State :=
  (((s.modPort p fun q => q.corrections h.corr).flitIn p).modPort p fun q => (q.acked h s.edge).credited h).pump p

end Sys2Proof.Machine
end

