-- ==== Sys2Proof/Machine/Receive.lean ====
section
/-!
DEFINITION. Receiving a message: its parity, its unit, and the answers to a message that is discarded (R329, R331).
-/

namespace Sys2Proof.Machine

open Sys2Proof

/-- MTYPE of a whole message: bits [127:120] of its header (Table 11.6). -/
def rxType (m : List Byte) : Nat := leAt m 15 1
/-- TAG of a whole message. -/
def rxTag (m : List Byte) : Nat := bitsOf (leAt m 0 8) 57 42
/-- DST of a whole message. -/
def rxDst (m : List Byte) : Nat := bitsOf (leAt m 0 16) 119 106
/-- SRC of a whole message. -/
def rxSrc (m : List Byte) : Nat := bitsOf (leAt m 0 16) 105 92
/-- SUNIT of a whole message. -/
def rxSunit (m : List Byte) : Nat := bitsOf (leAt m 0 16) 83 76
/-- LEN of a whole message's header. -/
def rxLen (m : List Byte) : Nat := bitsOf (leAt m 0 16) 75 63
/-- CLASS of a whole message's header. -/
def rxClass (m : List Byte) : Nat := bitsOf (leAt m 0 8) 62 61

/-- DUNIT of a whole message. -/
def rxUnit (m : List Byte) : Nat := bitsOf (leAt m 0 16) 91 84
/-- BCAST of a whole message. -/
def rxBcast (m : List Byte) : Bool := bitOf (leAt m 0 8) 58

/-- The types of Table 11.8 that a fabric port, or the host port, carries to a package. -/
def mtypeOk (host : Bool) (m : Nat) : Bool :=
  if host then [0x20, 0x21, 0x22, 0x3A, 0x3B, 0x3D, 0x3E].contains m
  else [0x01, 0x02, 0x03, 0x04, 0x10, 0x11, 0x12, 0x13, 0x14, 0x15, 0x30, 0x31, 0x32, 0x33, 0x3D, 0x3E].contains m

/-- A whole message is none that its port may carry (R330): its kind of port, its LEN, its CLASS. -/
def rxBad (host : Bool) (m : List Byte) : Bool :=
  !mtypeOk host (rxType m) || decide (4096 < rxLen m) || rxClass m != mtypeClass (rxType m)

/-- The bytes of the message of a type that its port has received and not yet given up, when they came as flits. -/
def State.rxFind (s : State) (v : Via) (mtype : Nat) : Option (List Byte) :=
  if v.port < 17 then ((s.port v.port).rxMsgs.find? fun m => rxType m.bytes == mtype && rxTag m.bytes == v.tag).map (·.bytes)
  else none

/-- The parity trailer of a message passes (R329): computed over its bytes when they came as flits. -/
def State.rxGood (s : State) (v : Via) (mtype : Nat) : Bool :=
  match s.rxFind v mtype with
  | some m => trailerOk m
  | none => v.good

/-- A message discarded as invalid: counted and logged (R330). -/
def State.rxInvalid (s : State) (port src : Nat) : State :=
  let s := if port < 17 then s.fjlCnt port 13 1 else s
  s.logEv { portEv port 0x6A with pkg := src }

/-- A message acted on leaves the messages that its port has received. -/
def State.takeRx (s : State) (v : Via) (mtype : Nat) : State :=
  if v.port < 17 then
    s.modPort v.port fun p => { p with rxMsgs := dropFirst (fun m => rxType m.bytes == mtype && rxTag m.bytes == v.tag) p.rxMsgs }
  else s

/-- A message that fails its parity trailer: discarded, counted and logged; class 1 is answered with PARITY_NAK
(R329). -/
def State.badParity (s : State) (v : Via) (mtype : Nat) : State :=
  let s := if v.port < 17 then s.fjlCnt v.port 13 1 else s
  let s := s.logEv { portEv v.port 0x68 with pkg := v.src }
  if mtypeClass mtype ≠ 1 then s
  else if v.port = 16 then s.sendHost 0xFF v.tag (.parityNak mtype)
  else s.sendFabric { body := .parityNak mtype, dst := v.src, dunit := v.unit, tag := v.tag }

/-- ERROR answered to the source of a message (R331, R334): the host, or a unit on the fabric. -/
def State.answerError (s : State) (v : Via) (code mtype : Nat) : State :=
  if mtype = 0x3E then s
  else if v.port = 16 then s.sendHost 0xFF v.tag (.error code mtype)
  else s.sendFabric { body := .error code mtype, dst := v.src, dunit := v.unit, tag := v.tag }

/-- A message for a unit of the H-die is received: whether it is acted on. One on the wrong kind of port is discarded (R330). On a
MISMATCH port only an ERROR is acted on; any other message is discarded and answered (R344). -/
def State.receive (s : State) (v : Via) (mtype : Nat) : Bool × State :=
  let good := s.rxGood v mtype
  let s := s.takeRx v mtype
  if v.port < 16 ∧ (s.port v.port).st = .mismatch ∧ mtype ≠ 0x3E then (false, s.answerError v 0x72 mtype)
  else if v.port < 17 ∧ !mtypeOk (v.port == 16) mtype then (false, s.rxInvalid v.port v.src)
  else if good then (true, s) else (false, s.badParity v mtype)

/-- A message discarded for its unit (R331): logged, and class 1 answered with ERROR 0x6D. -/
def State.noUnit (s : State) (v : Via) (mtype dunit : Nat) : State :=
  let s := s.logEv { portEv v.port 0x6D with sub := dunit, pkg := v.src }
  if mtypeClass mtype = 1 then s.answerError v 0x6D mtype else s

/-- Core `n` can take no message (R331). -/
def State.noCore (s : State) (n : Nat) : Bool :=
  decide (192 ≤ n) || s.retired n || [.reset, .bringup, .degradedHold, .unreachable].contains (s.die (coreDie n)).st

/-- A message for core `n` is received: whether it is acted on now. In BROWN_HOLD of its die the message `i` is held at
the H-die (R331). -/
def State.receiveCore (s : State) (v : Via) (mtype n : Nat) (i : Instr) : Bool × State :=
  let (ok, s) := s.receive v mtype
  if !ok then (false, s)
  else if s.noCore n then (false, s.noUnit v mtype n)
  else if (s.die (coreDie n)).st = .brownHold then (false, { s with heldMsgs := s.heldMsgs ++ [i] })
  else (true, s)

end Sys2Proof.Machine
end

