-- ==== Sys2Proof/Machine/Group.lean ====
section
/-!
DEFINITION. Group commands: rendezvous, slips, the commit rendezvous, votes and decisions, doubt; and the local commit
(R58 to R66, R365 to R376, R405, R419).
-/

namespace Sys2Proof.Machine

open Sys2Proof

/-! ## Leaving an attempt (R372, R375) -/

/-- The same for every group command that the package takes part in, with the code logged by its raiser (R45, R51,
R54). -/
def State.abortGroups (s : State) (cause : Nat) : State :=
  (s.cmd.cmds.filter fun c => c.group.isSome && c.stage != .resolved).foldl (fun s c => s.abortGroup c.acceptNo cause) s

/-- The attempt of a command ends now with a code: its cores have no work to stop (R366). One that has ended with a code of its own
keeps it; for another the code is logged (R381). -/
def State.endNow (s : State) (a code sub cause pkg : Nat) : State :=
  let own := (s.getCmd a).any fun c => c.stage == .votedAbort || c.stage == .aborting
  let s := if own then s else s.logEv { code := code, unit := 0xF1, sub := sub, cause := cause, pkg := pkg, acceptNo := a }
  let s := s.modCmd a fun c =>
    if c.stage == .votedAbort || c.stage == .aborting then { c with stage := .aborting }
    else { c with stage := .aborting, code := code, sub := sub, cause := cause, causePkg := pkg, kill := none }
  s.endAttempt a

/-- A participant applies the decision that its group state holds (R375). -/
def State.applyDecision (s : State) (a : Nat) (d : Decision) : State :=
  match s.getCmd a with
  | none => s
  | some c =>
    if d.kind = 1 then
      if c.stage = .prepared ∨ c.stage = .inDoubt then
        let s := s.modCmd a fun c => { c with stage := .committing }
        let (_, s) := s.writeMirror (c.record 0 (.commitGroup d.beat)) (.commit a)
        s.goCommit a
      else s
    else if s.coresIdle a then
      if c.kill.isSome then s else s.endNow a 0x42 2 d.cause d.first
    else s.killCmd a 0x42 2 d.cause d.first

/-- The coordinator decides ABORT or FAIL, and applies its decision (R373, R375). -/
def State.decideAbort (s : State) (c : Cmd) (g : Group) (fail : Bool) (cause first restart : Nat) : State :=
  let s := s.decideNeg c g fail cause first restart
  match (s.getCmd c.acceptNo).bind fun c => c.group.bind (·.decision) with
  | some d => s.applyDecision c.acceptNo d
  | none => s

/-- The commit beat C (R370). -/
def Group.commitBeat (g : Group) : Nat := g.rk (g.nrdv - 1)

/-- The coordinator's commit decision is durable: it is broadcast and applied (R373). -/
def State.announceCommit (s : State) (c : Cmd) (g : Group) (d : Decision) : State :=
  (s.announce c g d).applyDecision c.acceptNo d

/-- The coordinator decides COMMIT: DECISION is journaled and mirrored to COORD_PARTNER (R373), by an UNPAIRED package too
(DEDUCED, assumption 34). -/
def State.decideCommit (s : State) (c : Cmd) (g : Group) : State :=
  let d : Decision := { gid := g.gid, epoch := c.epoch, kind := 1, beat := g.commitBeat + 1024 }
  let (r, s) := s.writeRec (c.record 0 (.decision d g.rerunDelay))
  let s := s.modGroup c.acceptNo fun g => { g with deciding := some (d, s.nextTag) }
  s.mirrorTo g.coordPartner r (.decision c.acceptNo)

/-- At C, with COMMIT from every child: VOTE COMMIT goes to the parent; the coordinator decides (R370, R373). -/
def State.tryVote (s : State) (a : Nat) : State :=
  match s.getCmd a with
  | none => s
  | some c => match c.group with
    | none => s
    | some g =>
      let all := (s.voteChildren g).all fun x => g.commits.contains x
      if g.k < g.nrdv ∨ c.stage ≠ .prepared ∨ g.voted.isSome ∨ g.decision.isSome ∨ g.deciding.isSome ∨ g.forwarded ∨ !all
      then s
      else match s.voteParent g with
        | none => if s.now ≤ g.commitBeat + 256 then s.decideCommit c g else s
        | some p =>
          let s := s.modGroup a fun g => { g with voted := some 1, voteEdge := s.edge }
          let v : Vote := { gid := g.gid, epoch := c.epoch, kind := 1, voter := s.cfg.pkgId }
          (s.sendUnit p (.vote v)).cmdCnt 5

/-! ## PREPARE and the READY of the commit (R370, R405, R419) -/

/-- A command uses a core of a die in hold, or names an output with an extent there (R419); or it names an output homed in
an UNREACHABLE die (R27). -/
def State.dieHold (s : State) (c : Cmd) : Bool :=
  let held := fun d => (s.die d).st == .brownHold || (s.die d).st == .degradedHold
  c.cores.any (fun n => held (coreDie n)) || s.outputIn c held || s.outputGone c

/-- READY for the commit rendezvous, once PREPARE is durable (R370). -/
def State.commitReady (s : State) (a : Nat) : State :=
  match s.getCmd a with
  | none => s
  | some c => match c.group with
    | none => s
    | some g =>
      if c.stage = .prepared ∧ g.prepared ∧ !g.readySent.contains (g.nrdv - 1) ∧ g.voted = none ∧ !s.dieHold c then
        s.sendReady c g (g.nrdv - 1)
      else s

/-- The PREPARE record is durable. -/
def State.prepared (s : State) (a : Nat) : State :=
  match s.getCmd a with
  | none => s
  | some c =>
    if c.stage ≠ .preparing then s
    else
      let s := s.modCmd a fun c => { c with stage := .prepared }
      (s.modGroup a fun g => { g with prepared := true }).commitReady a

/-- Every core of a group command has ended: PREPARE is written, unless the ceiling of R405 or a hold of R419 withholds
it. -/
def State.tryPrepare (s : State) (a : Nat) : State :=
  match s.getCmd a with
  | none => s
  | some c =>
    if c.stage ≠ .commitWait ∨ c.group.isNone then s
    else if s.dieHold c ∨ s.atCeiling c then s
    else
      let s := s.modCmd a fun c => { c with stage := .preparing }
      let (now, s) := s.writeMirror (c.record 0 (.prepare c.outs)) (.prepare a)
      if now then s.prepared a else s

/-- All cores of a command have ended the attempt (R97, R365, R370). A commit that the ceiling holds
is counted (R405), and a local commit that waits for a freeze (R390). -/
def State.allEnded (s : State) (a : Nat) : State :=
  match s.getCmd a with
  | none => s
  | some c =>
    let s := s.modCmd a fun c => { c with stage := .commitWait }
    let s := if s.atCeiling c then s.lidCnt 14 1 else s
    let s := if c.group.isNone ∧ s.freezeHolds c.part = true then s.modLid fun l => { l with freezeWaits := l.freezeWaits + 1 } else s
    s.tryPrepare a

/-- Group commands that a hold or the ceiling withheld try again. -/
def State.retryPrepares (s : State) : State :=
  s.cmd.cmds.foldl (fun s c =>
    if c.group.isNone then s
    else if c.stage = .commitWait then s.tryPrepare c.acceptNo else s.commitReady c.acceptNo) s

/-- The commit of a RUN command: COMMIT record, mirror, flips (R365). It waits for a freeze that is due (R390), for the
ceiling (R405), and for a hold to end (R419). -/
def State.localCommit (s : State) (a : Nat) : State :=
  match s.getCmd a with
  | none => s
  | some c =>
    if c.stage ≠ .commitWait ∨ c.group.isSome ∨ c.kill.isSome then s
    else if s.freezeHolds c.part ∨ s.atCeiling c ∨ s.dieHold c then s
    else
      let seq := s.cmd.nextSeq
      let s := s.modCmd a fun c => { c with stage := .committing, commitSeq := seq, commitBeat := s.now }
      let (_, s) := s.writeMirror (c.record 0 (.commitLocal c.outs)) (.commit a)
      s.goCommit a

/-! ## Slips (R59, R61, R62, R64, R66) -/

/-- A group command whose attempt can still meet its rendezvous. -/
def Cmd.active (c : Cmd) : Bool :=
  [.queued, .staging, .running, .commitWait, .preparing, .prepared].contains c.stage && c.kill.isNone

/-- Stall cycles of a cause on a core over the 512 beats before the present edge (R66). -/
def stallSum (e cause : Nat) (l : List (Nat × Nat × Nat × Nat)) : Nat :=
  sumL (l.map fun x => if x.2.2.1 = cause then (min e x.2.1 - max (e - 512) x.1) * x.2.2.2 else 0)

/-- The core of the group that is ready last (R66): the lowest that has not executed the rendezvous instruction, else
the lowest of those that executed it last. For the commit rendezvous, the end of the command stands in its place. -/
def Group.lateCore (g : Group) (c : Cmd) (k : Nat) : Option Nat :=
  let cs := sortBy (fun a b => decide (a ≤ b)) c.cores
  if k + 1 = g.nrdv then
    match cs.find? fun n => !c.ended.contains n with
    | some n => some n
    | none => cs.head?
  else
    let at_ := fun n => g.rdvs.find? fun r => r.1 == n && decide (k ≤ r.2.1)
    match cs.find? fun n => (at_ n).isNone with
    | some n => some n
    | none =>
      let last := maxL 0 (cs.map fun n => ((at_ n).map (·.2.2)).getD 0)
      cs.find? fun n => ((at_ n).map (·.2.2)).getD 0 == last

/-- The cause code of a SLIP (R66, Table 2.5). -/
def State.slipCause (s : State) (c : Cmd) (g : Group) (k : Nat) : Nat :=
  let brown := c.cores.any fun n => (s.die (coreDie n)).st == .brownHold
  let held := c.cores.any fun n => (s.core n).sm.tags.toList.any fun t => t.g.any fun p =>
    p.2.held && p.2.slices.any fun r => (s.die (sliceDie r)).st == .brownHold
  if brown ∨ held then 0xC
  else match g.lateCore c k with
    | none => 0xF
    | some n =>
      let sums := [0, 1, 2, 3, 4, 5, 6, 7, 8, 9, 0xA, 0xB, 0xD].map fun x => (x, stallSum s.edge x (s.core n).stallWin)
      let top := maxL 0 (sums.map (·.2))
      if top = 0 then 0xF else ((sums.find? fun p => p.2 == top).map (·.1)).getD 0xF

/-- A slip of rendezvous `k` is applied: the base moves by 512 beats on the group and on its cores (R61). -/
def State.applySlip (s : State) (a k : Nat) : State :=
  let s := s.modGroup a fun g => { g with base := g.base + 512, slips := alSet g.slips k (alGet g.slips k 0 + 1) }
  let mine := ((s.getCmd a).map (·.cores)).getD []
  let s := mine.foldl (fun s n => s.modCore n fun c => { c with beatBase := c.beatBase + 512 }) s
  s.beatCnt 17

/-- A command's group has its rendezvous `k` ahead, and READY for it is not sent: R_k. -/
def State.leadOpen (s : State) (a k : Nat) : Option Nat :=
  match s.getCmd a with
  | none => none
  | some c => match c.group with
    | none => none
    | some g =>
      if !c.active ∨ k < g.k ∨ g.nrdv ≤ k ∨ g.readySent.contains k ∨ g.voted.isSome ∨ g.decision.isSome then none
      else some (g.rk k)

/-- R_k − H without READY: SLIP to every participant, or an abort vote at the limit (R59, R64). -/
def State.lead (s : State) (a k : Nat) : State :=
  match s.getCmd a with
  | none => s
  | some c => match c.group with
    | none => s
    | some g =>
      if !c.active ∨ k < g.k ∨ g.nrdv ≤ k ∨ g.readySent.contains k ∨ g.voted.isSome ∨ g.decision.isSome
          ∨ s.now + 256 ≠ g.rk k then s
      else if s.beat.maxSlips ≤ alGet g.slips k 0 then
        (s.logEv { code := 0x36, unit := 0xF2, acceptNo := a }).abortGroup a 0x36
      else
        let cause := s.slipCause c g k
        let s := s.broadcast g.boxLo g.boxHi (.slip g.gid k (g.rk k) cause)
        (s.beatCnt cause).applySlip a k

/-- The beat of a rendezvous that has begun: the slips of later ones have moved the base since (R61). -/
def Group.rkBegun (g : Group) (k : Nat) : Nat :=
  g.rk k - 512 * sumL (g.slips.map fun p => if k < p.1 then p.2 else 0)

/-- A SLIP received (R61, R62). One that names the beat of a rendezvous that has begun is late. -/
def State.slipIn (s : State) (gid k rk : Nat) : State :=
  match s.cmdOfGroup gid with
  | none => s
  | some c => match c.group with
    | none => s
    | some g =>
      let s := s.beatCnt 16
      let cur := if k < g.k then g.rkBegun k else g.rk k
      if g.nrdv ≤ k ∨ rk ≠ cur then s
      else if g.k ≤ k ∧ s.now + 32 < rk then s.applySlip c.acceptNo k
      else (s.logEv { code := 0x35, unit := 0xF2, acceptNo := c.acceptNo }).abortGroup c.acceptNo 0x35

/-! ## Reaching a rendezvous (R63, R369, R370) -/

/-- The RDV instructions of a rendezvous complete on a core (R369). -/
def CoreSt.rdvDone (c : CoreSt) (k : Nat) : CoreSt :=
  { c with flights := vmod c.flights 4 fun l => l.map fun f =>
      if f.e.op == 0x05 && !f.e.null && fld f.e.b 63 56 == k then { f with done := true } else f }

/-- The package starts the step of rendezvous `k`. -/
def State.startStep (s : State) (c : Cmd) (g : Group) (k : Nat) : State :=
  let a := c.acceptNo
  let s := s.modGroup a fun g => { g with k := k + 1 }
  let s := if alGet g.slips k 0 = 0 then s.beatCnt 18 else s
  if k + 1 = g.nrdv then s.tryVote a
  else c.cores.foldl (fun s n => (s.modCore n fun x => x.rdvDone k).settle n) s

/-- A command's group has not reached its next rendezvous: its beat. -/
def State.reachOpen (s : State) (a : Nat) : Option Nat :=
  match s.getCmd a with
  | none => none
  | some c => match c.group with
    | none => none
    | some g =>
      if !c.active ∨ g.nrdv ≤ g.k ∨ g.voted.isSome ∨ g.decision.isSome then none else some (g.rk g.k)

/-- R_k is reached: the step starts with READY from every peer, or the package votes ABORT (R63). -/
def State.reach (s : State) (a : Nat) : State :=
  match s.getCmd a with
  | none => s
  | some c => match c.group with
    | none => s
    | some g =>
      if !c.active ∨ g.nrdv ≤ g.k ∨ g.voted.isSome ∨ g.decision.isSome ∨ s.now < g.rk g.k then s
      else if g.readySent.contains g.k ∧ ((s.peers g g.k).all fun p => g.readies.contains (p, g.k)) = true then
        s.startStep c g g.k
      else (s.logEv { code := 0x37, unit := 0xF2, acceptNo := a }).abortGroup a 0x37

/-! ## Votes and decisions received (R371 to R376) -/

/-- A decision answered to one package, routed (R371). -/
def State.answerDecision (s : State) (dst : Nat) (d : Decision) : State := s.sendUnit dst (.decision d)

/-- A QUERY: the decision held, or ABORT recorded and answered by the coordinator's partner (R374). -/
def State.queryIn (s : State) (v : Vote) : State :=
  let coordinates := (s.cmdOfGroup v.gid).any fun c => match c.group with
    | some g => (s.voteParent g).isNone && c.epoch == v.epoch
    | none => false
  match s.decisionOf v.gid v.epoch with
  | some d => (if coordinates then s else s.cmdCnt 8).answerDecision v.voter d
  | none =>
    if coordinates then s
    else
      let d : Decision :=
        { gid := v.gid, epoch := v.epoch, kind := 2, cause := 0x42, first := s.cfg.pkgId, beat := s.now + v.rerunDelay }
      let r : JRec :=
        { acceptNo := 0, seq := 0, identity := v.gid, beat := 0, code := 0x42, epoch := v.epoch,
          payload := .decision d v.rerunDelay }
      let s := s.logEv { code := 0x42, unit := 0xF1, sub := 6, pkg := v.voter }
      (((s.note r).keepDecision d).cmdCnt 8).answerDecision v.voter d

/-- A VOTE received from package `src` (R370 to R374). -/
def State.voteIn (s : State) (src : Nat) (v : Vote) : State :=
  if v.kind = 4 then s.queryIn v
  else
    let late := fun (s : State) => match s.decisionOf v.gid v.epoch with
      | some d => s.answerDecision v.voter d
      | none => s
    match s.cmdOfGroup v.gid with
    | none => late s
    | some c => match c.group with
      | none => s
      | some g =>
        let a := c.acceptNo
        if c.epoch ≠ v.epoch ∨ g.decision.isSome then late s
        else if v.kind = 1 then
          (s.modGroup a fun g => { g with commits := if g.commits.contains src then g.commits else g.commits ++ [src] }).tryVote a
        else
          let s := s.modGroup a fun g => { g with restart := max g.restart v.restart }
          match s.voteParent g with
          | none => s.decideAbort c g (v.kind == 3) v.cause v.voter v.restart
          | some p =>
            if g.forwarded ∨ g.voted = some 2 ∨ g.voted = some 3 then s
            else
              let s := s.modGroup a fun g => { g with forwarded := true }
              (s.sendUnit p (.vote v)).cmdCnt 5

/-- A DECISION received: the first one of the attempt is applied (R375, R376). -/
def State.decisionIn (s : State) (d : Decision) : State :=
  let s := s.cmdCnt 6
  match s.cmdOfGroup d.gid with
  | none => s
  | some c => match c.group with
    | none => s
    | some g =>
      if c.epoch ≠ d.epoch ∨ g.decision.isSome then s
      else (s.modGroup c.acceptNo fun g => { g with decision := some d }).applyDecision c.acceptNo d

/-- At C + 256 without every COMMIT the coordinator decides ABORT, code 0x42 detail 5 (R373). -/
def State.voteTimeout (s : State) (a : Nat) : State :=
  match s.getCmd a with
  | none => s
  | some c => match c.group with
    | none => s
    | some g =>
      if g.k < g.nrdv ∨ c.stage ≠ .prepared ∨ (s.voteParent g).isSome ∨ g.decision.isSome ∨ g.deciding.isSome
          ∨ s.now < g.commitBeat + 256 then s
      else
        (s.logEv { code := 0x42, unit := 0xF1, sub := 5, acceptNo := a }).decideAbort c g false 0x42 s.cfg.pkgId 0

/-- The mirror of a COMMIT decision is not acknowledged by D − 192: ABORT with cause 0x4F (R373). -/
def State.mirrorTimeout (s : State) (a : Nat) : State :=
  match s.getCmd a with
  | none => s
  | some c => match c.group with
    | none => s
    | some g => match g.deciding with
      | none => s
      | some (d, tag) =>
        if s.now + 192 < d.beat ∨ g.decision.isSome then s
        else
          let s := s.modCmdU fun u => { u with mirrors := u.mirrors.filter fun m => m.tag != tag }
          let s := s.modGroup a fun g => { g with deciding := none }
          (s.logEv { code := 0x4F, unit := 0xF1, acceptNo := a }).decideAbort c g false 0x4F s.cfg.pkgId 0

/-- A participant has no decision in time: it is IN_DOUBT (R376). -/
def State.doubt (s : State) (a : Nat) : State :=
  match s.getCmd a with
  | none => s
  | some c => match c.group with
    | none => s
    | some g =>
      let waits := (c.stage == .prepared && g.voted == some 1 && decide (g.commitBeat + 1280 ≤ s.now))
        || (c.stage == .votedAbort && decide (g.voteEdge + 1024 ≤ s.edge))
      if waits ∧ g.decision.isNone then
        let s := s.modCmd a fun c => { c with stage := .inDoubt }
        (s.modGroup a fun g => { g with lastQuery := s.edge }).cmdCnt 7
      else s

/-- An IN_DOUBT participant queries the coordinator and COORD_PARTNER in turn (R376). -/
def State.queryOut (s : State) (a : Nat) : State :=
  match s.getCmd a with
  | none => s
  | some c => match c.group with
    | none => s
    | some g =>
      if c.stage ≠ .inDoubt ∨ s.edge < g.lastQuery + 4096 then s
      else
        let v : Vote :=
          { gid := g.gid, epoch := c.epoch, kind := 4, voter := s.cfg.pkgId, rerunDelay := g.rerunDelay }
        let s := s.modGroup a fun g => { g with queries := g.queries + 1, lastQuery := s.edge }
        (s.sendUnit (if g.queries % 2 = 0 then g.coord else g.coordPartner) (.vote v)).cmdCnt 5

/-- The rerun of a group command starts at its restart beat; one that is too late for its first rendezvous votes ABORT
(R65, R375). -/
def State.rerunGroup (s : State) (a : Nat) : State :=
  match s.getCmd a with
  | none => s
  | some c => match c.group with
    | none => s
    | some g =>
      if c.stage ≠ .queued ∨ c.attempts = 0 ∨ s.now < g.base ∨ s.now < c.notBefore ∨ s.partFree c.part = false
          ∨ (s.jobHead c.part c.job).map (·.acceptNo) ≠ some a then s
      else if g.rk 0 < s.now + 256 then
        let s := s.logEv { code := 0x38, unit := 0xF2, acceptNo := a }
        let s := s.modCmd a fun c => { c with attempts := c.attempts + 1, stage := .aborting, code := 0x38 }
        (s.voteNeg a false 0x38 0).endAttempt a
      else s.startAttempt c

/-! ## Mirrors (R358, R374) -/

/-- A MIRROR received from package `src`: written and acknowledged, or refused (R374, R384). A record that is held
already is acknowledged again. Of a package that is not the accepted partner only a decision is written, which the group's
schedule sends here (R373; DEDUCED, assumption 34). -/
def State.mirrorIn (s : State) (src tag : Nat) (r : JRec) : State :=
  let answer := fun (s : State) (ok : Bool) =>
    s.sendFabric { body := .mirrorAck ok, dst := src, dunit := 0xF1, sunit := 0xF1, tag := tag }
  let write := fun (s : State) =>
    if s.cmd.partnerJrnl.any fun x => x.seq == r.seq then s
    else (s.modCmdU fun u => { u with partnerJrnl := u.partnerJrnl ++ [r] }).cmdCnt 10
  let own := !s.unpaired && src == s.lid.partner
  match r.payload with
  | .decision d _ =>
    if d.kind = 1 ∧ (d.beat ≤ s.now + 192 ∨ ((s.decisionOf d.gid d.epoch).any fun x => x.kind != 1) = true) then
      answer s false
    else answer ((if own then write s else s.cmdCnt 10).keepDecision d) true
  | _ => if own then answer (write s) true else answer s false

/-- MIRROR_ACK: what waited for the record goes on; a refused mirror stays unacknowledged (R358, R373). -/
def State.mirrorAck (s : State) (tag : Nat) (ok : Bool) : State :=
  match s.cmd.mirrors.find? fun m => m.tag == tag with
  | none => s
  | some m =>
    if !ok then s
    else
      let s := s.modCmdU fun u => { u with mirrors := u.mirrors.filter fun m => m.tag != tag }
      match m.why with
      | .accept a => s.accepted a
      | .commit a => s.goCommit a
      | .prepare a => s.prepared a
      | .decision a =>
        match s.getCmd a with
        | none => s
        | some c => match c.group with
          | none => s
          | some g => match g.deciding with
            | some (d, _) => if g.decision.isSome then s else s.announceCommit c g d
            | none => s
      | .plain => s

/-- A MIRROR that is not acknowledged is sent again every 65,536 beats, each timeout logged (R338, R358). -/
def State.mirrorRetry (s : State) (tag : Nat) : State :=
  match s.cmd.mirrors.find? fun m => m.tag == tag with
  | none => s
  | some m =>
    if s.edge < m.sentEdge + 65536 then s
    else
      let s := s.logEv { code := 0x67, unit := 0xF1, acceptNo := m.rec_.acceptNo }
      let s := s.sendFabric { body := .mirror m.rec_, dst := m.dst, dunit := 0xF1, sunit := 0xF1, tag := tag }
      let again := fun (x : MirrorOut) => { x with sentEdge := s.edge, tries := 1 }
      (s.modCmdU fun u => { u with mirrors := modFirst (fun x => x.tag == tag) again u.mirrors }).cmdCnt 9

/-- A broadcast received goes on over its box (R336). -/
def State.relay (s : State) (src : Nat) (b : Body) (arr : Option Arrival) : State :=
  match arr with
  | none => s
  | some x =>
    s.spreadBcast { body := b, src := src, dunit := 0xF1, sunit := 0xF1, box := some (x.lo, x.hi) }
      (some (x.dim, x.minus, x.rem, x.dlc))

/-! ## The rows of rendezvous and slip -/

/-- RENDEZVOUS_LEAD (R59): the clock runs to R_k − H of command `a`. -/
def execRendezvousLead (a k : Nat) (s : State) : Answer :=
  match s.leadOpen a k with
  | none => .next s
  | some rk => .next ((s.toBeat (rk - 256)).lead a k)

/-- SLIP (R61): with the way it came when it was broadcast. -/
def execSlip (v : Via) (gid k rk cause : Nat) (arr : Option Arrival) (s : State) : Answer :=
  let (ok, s) := s.receive v 0x02
  if ok then .next ((s.relay v.src (.slip gid k rk cause) arr).slipIn gid k rk) else .next s

/-- READY is kept for its rendezvous (R63). -/
def State.readyIn (s : State) (src gid k : Nat) : State :=
  match s.cmdOfGroup gid with
  | none => s
  | some c => s.modGroup c.acceptNo fun g =>
      { g with readies := if g.readies.contains (src, k) then g.readies else g.readies ++ [(src, k)] }

/-- READY (R63). -/
def execReady (v : Via) (gid k : Nat) (s : State) : Answer :=
  let (ok, s) := s.receive v 0x01
  if ok then .next (s.readyIn v.src gid k) else .next s

/-- RENDEZVOUS_REACHED (R63): the clock runs to R_k of command `a`. -/
def execRendezvousReached (a : Nat) (s : State) : Answer :=
  match s.reachOpen a with
  | none => .next s
  | some rk => .next ((s.toBeat rk).reach a)

/-- START_BEAT_REACHED (R55): the core fetches from its group's base on. -/
def execStartBeatReached (core : Nat) (s : State) : Answer :=
  if (s.core core).st = .waitingStart then
    let s := s.toBeat (s.core core).beatBase
    if (s.core core).beatBase ≤ s.now then .next ((s.modCore core fun c => { c with st := .running, progress := true }).settle core)
    else .next s
  else .next s

end Sys2Proof.Machine
end

