-- ==== Sys2Proof/Machine/Beat.lean ====
section
/-!
DEFINITION. The beat unit: lock states, tracking and holdover, seeds and markers (R34 to R54, R500, R501).
-/

namespace Sys2Proof.Machine

open Sys2Proof

/-! ## Lock states (R46, Table 2.3) -/

/-- The package is its system's timing root in mode 0b10 (R42). -/
def BeatSt.linkRoot (b : BeatSt) : Bool := b.root && b.mode == 2

/-- The PLL locks (R43, R501, Table 2.3): the count goes on from where it stopped. -/
def State.pllLock (s : State) : State :=
  if s.beat.lock ≠ .unlocked ∨ s.power.inReset then s
  else
    let root := s.beat.linkRoot
    let s := s.modBeat fun b =>
      { b with
        freeRun := b.mode == 1, lockEdge := b.edge, markerSeen := false, noRootLogged := false, ignoredRun := 0
        lastGood := none, residue := if root then 0 else b.residue, depth := if root then 0 else b.depth }
    s.setLock (if root then .phaseLocked else .freqLocked) 0x3F

/-- An attempt that runs or has not voted is ended by the loss of REFCLK with code 0x31 (Table 2.4). -/
def State.refclkAbort (s : State) (c : Cmd) : State :=
  let started := [.staging, .running, .commitWait, .preparing, .prepared].contains c.stage
  if started && !(c.group.any fun g => g.voted == some 1 || g.deciding.isSome || g.decision.isSome) then
    (s.voteNeg c.acceptNo false 0x31 0).stopAttempt c.acceptNo 0x31 0 0 s.pkgIdField
  else if c.group.isSome && c.stage == .queued then s.abortGroup c.acceptNo 0x31
  else s

/-- REFCLK is lost or the PLL unlocks: UNLOCKED, and the running commands are aborted (Table 2.4, R476). -/
def State.refclkLost (s : State) : State :=
  if s.beat.lock = .unlocked then s
  else
    let s := s.setLock .unlocked 0x31
    let s := s.modBeat fun b =>
      { b with holdover := false, elapsed := 0, sysCount := none, align := 0, slew := 0, beatLen := 64, lastGood := none, ignoredRun := 0 }
    s.cmd.cmds.foldl State.refclkAbort s

/-! ## Arrivals against the local edges (R50, R500) -/

/-- An arrival `t` cycles after the present beat edge (negative: before it): the nearest edge, as edges from the present
one, and its phase against that edge in cycles. Ties go to the later edge. -/
def BeatSt.nearest (b : BeatSt) (t : Int) : Int × Int :=
  if 0 ≤ t then
    if 2 * t < b.beatLen then (0, t) else (1, t - b.beatLen)
  else
    let d := (t + 32) / 64
    (d, t - 64 * d)

/-- The number of an edge `d` edges from the present one, as the system counts. -/
def BeatSt.numAt (b : BeatSt) (d : Int) : Nat := ((b.system : Int) + d).toNat

/-- Beats from the nearest pulse edge to an edge numbered `num` (R500): negative before it. -/
def BeatSt.fromPulse (b : BeatSt) (num : Nat) : Int :=
  let p := if b.lock = .timeLocked then 0 else b.residue
  let d := (num + 65536 - p) % 65536
  if d < 32768 then (d : Int) else (d : Int) - 65536

/-- Edge number of an edge `d` edges from the present one. -/
def BeatSt.edgeAt (b : BeatSt) (d : Int) : Nat := ((b.edge : Int) + d).toNat

/-- Sync is lost: holdover begins (R51). -/
def State.loseSync (s : State) : State :=
  if (s.beat.lock = .phaseLocked ∨ s.beat.lock = .timeLocked) ∧ !s.beat.holdover then
    (s.modBeat fun b => { b with holdover := true, elapsed := 0, ignoredRun := 0, prevPulse := none }).beatCnt 20
  else s

/-- A pulse or marker outside its window (R50). -/
def State.ignorePulse (s : State) : State :=
  let s := (s.beatCnt 19).logEv (beatEv 0x34)
  let s := s.modBeat fun b => { b with ignoredRun := b.ignoredRun + 1, prevPulse := none }
  if 3 ≤ s.beat.ignoredRun then s.loseSync else s

/-- A pulse, or a marker on SRC_PORT, whose arrival lies `t` cycles from the present edge is used for phase: for the
lock of R500, for tracking, or for the return of sync (R50 to R52). -/
def State.phaseMark (s : State) (t : Int) : State :=
  let b := s.beat
  let (d, φ) := b.nearest t
  let e := b.edgeAt d
  match b.lock with
  | .unlocked => s
  | .freqLocked =>
    let pair := match b.prevPulse with
      | none => false
      | some (e0, φ0) => decide ((64 * ((e : Int) - e0 - 65536) + φ - φ0).natAbs ≤ 16)
    if pair then
      let s := s.modBeat fun b => { b with align := φ, residue := b.numAt d % 65536 }
      (s.setLock .phaseLocked 0x3F).modBeat fun b => { b with lastGood := some e, ignoredRun := 0 }
    else s.modBeat fun b => { b with prevPulse := some (e, φ) }
  | _ =>
    let off := b.fromPulse (b.numAt d)
    let err := 64 * off + φ
    let at_ := b.edgeAt (d - off)
    if (if b.holdover then 64 else 16) < err.natAbs then s.ignorePulse
    else if b.holdover then
      let back := match b.prevPulse with
        | none => false
        | some (e0, _) => e0 + 65536 == at_
      if back then
        s.modBeat fun b =>
          { b with holdover := false, elapsed := 0, slew := err, prevPulse := none, lastGood := some at_, ignoredRun := 0 }
      else s.modBeat fun b => { b with prevPulse := some (at_, err), ignoredRun := 0 }
    else s.modBeat fun b => { b with slew := err, lastGood := some at_, ignoredRun := 0 }

/-- A BEAT_SYNC rising edge `cyc` cycles into the present beat (R50). Modes 0b10 and 0b01 do not use it (Table 2.1,
R43). -/
def State.pulse (s : State) (cyc : Nat) : State := if s.beat.mode = 3 then s.phaseMark cyc else s

/-- No pulse or marker within the window of its expected edge (R50, R51). -/
def State.syncLost (s : State) : State :=
  let b := s.beat
  if b.mode = 1 ∨ b.linkRoot ∨ b.holdover ∨ (b.lock ≠ .phaseLocked ∧ b.lock ≠ .timeLocked) then s
  else match b.lastGood with
    | none => s
    | some e => (s.toEdge (e + 65536)).loseSync

/-- Holdover reaches 2^20 beats (R51). A count that is held for the system count (R53) goes on from its held value as
TIME_LOCKED is left (DESIGN CHOICE, assumption 37). -/
def State.holdoverEnds (s : State) : State :=
  if !s.beat.holdover then s
  else
    let s := s.advance (2 ^ 20 - s.beat.elapsed)
    let s := s.modBeat fun b => { b with holdover := false, elapsed := 0, lastGood := none, sysCount := none }
    ((s.setLock .freqLocked 0x32).beatCnt 21).abortGroups 0x32

/-- No root is named, and no marker came for 2^20 beats after PLL lock (R42). -/
def State.noRoot (s : State) : State :=
  let b := s.beat
  if b.mode = 1 ∨ b.rootValid ∨ b.markerSeen ∨ b.noRootLogged ∨ (b.lock ≠ .freqLocked ∧ b.lock ≠ .phaseLocked) then s
  else
    let s := s.toEdge (b.lockEdge + 2 ^ 20)
    (s.modBeat fun b => { b with noRootLogged := true }).logEv (beatEv 0x3C)

/-! ## Seeds (R47) -/

/-- A write of VALUE to BEAT_SEED: the error code of its reply, and the state (R47). -/
def State.writeSeed (s : State) (v : Nat) : Nat × State :=
  if s.beat.root ∧ s.beat.lock = .phaseLocked then (0, s.modBeat fun b => { b with pendingSeed := some v })
  else (0x3B, s.logEv (beatEv 0x3B))

/-- Edges to the next edge whose number has its low 16 bits equal to `p`; none when the present one has. -/
def toPulse (n p : Nat) : Nat := (p + 65536 - n % 65536) % 65536

/-- The pending seed is compared at the next pulse edge (R47). -/
def State.seedCompare (s : State) : State :=
  match s.beat.pendingSeed with
  | none => s
  | some v =>
    let s := s.advance (1 + toPulse (s.now + 1) s.beat.residue)
    if s.now ≤ v * 65536 then
      let s := s.modBeat fun b => { b with pendingSeed := none, residue := 0, count := v * 65536 }
      s.setLock .timeLocked 0x3F
    else (s.modBeat fun b => { b with pendingSeed := none }).logEv (beatEv 0x3B)

/-! ## Markers (R41, R48, R49, R341, R342) -/

/-- Cycles from the present edge to the sender's beat edge (R342): the arrival less FJL_LAT (quarter cycles) less D
(UI of 15.625 ps, 17/640 of a cycle), rounded to a cycle. -/
def markerTime (cyc lat d : Nat) : Int := (1280 * (cyc : Int) - 320 * lat - 34 * d + 640) / 1280

/-- A marker that a PHASE_LOCKED package uses for the count (R48): `e` is the pulse edge that it is timed on (R500). Markers
timed on one pulse edge are of one occasion, and occasions on pulse edges 65,536 apart are consecutive (R48 says no nearer
what an occasion is; DESIGN CHOICE, assumption 37). -/
def State.countMark (s : State) (e v : Nat) : State :=
  let start : BeatSt → BeatSt := fun b => { b with occ := some { edge := e, value := v, agree := true } }
  match s.beat.occ with
  | none => s.modBeat start
  | some o =>
    if e < o.edge then s
    else if e = o.edge then
      if v = o.value ∨ !o.agree then s
      else
        let s := s.modBeat fun b => { b with occ := some { o with agree := false }, adoptDue := none }
        (s.beatCnt 22).logEv (beatEv 0x33)
    else
      let s := s.modBeat start
      if o.agree ∧ e = o.edge + 65536 ∧ v = o.value + 1 then s.modBeat fun b => { b with adoptDue := some (v, e) } else s

/-- A package at a depth above 4 does not pass PHASE_LOCKED (R41). -/
def BeatSt.tooDeep (b : BeatSt) : Bool := decide (4 < b.depthShown)

/-- A MARKER flit received on a port `cyc` cycles into the present beat, with its value, depth, HOLD and D (R41, R48 to
R50). A marker on SRC_PORT outside its window is ignored for phase and count alike. -/
def State.markerIn (s : State) (port cyc value depth : Nat) (hold : Bool) (d : Nat) : State :=
  if 16 ≤ port ∨ s.beat.mode = 1 ∨ s.beat.lock = .unlocked then s
  else
    let s := s.modBeat fun b => { b with markerSeen := true }
    let t := markerTime cyc (s.port port).lat d
    let b := s.beat
    let (k, φ) := b.nearest t
    let num := b.numAt k
    if b.lock = .timeLocked ∧ (num + 32768) / 65536 ≠ value then (s.beatCnt 22).logEv (beatEv 0x33)
    else
      let src := b.mode == 2 && port == b.srcPort && !b.root
      let s := if src then
          let s := if 4 < depth + 1 ∧ b.depth ≤ 4 then s.logEv (beatEv 0x3A) else s
          s.modBeat fun b => { b with depth := min 7 (depth + 1) }
        else s
      let off := b.fromPulse num
      let out := src && !hold && b.lock == .phaseLocked
        && decide ((if b.holdover then 64 else 16) < (64 * off + φ).natAbs)
      let s := if src ∧ !hold ∧ !(s.beat.tooDeep ∧ b.lock = .freqLocked) then s.phaseMark t else s
      if s.beat.lock = .phaseLocked ∧ !s.beat.tooDeep ∧ !out then
        s.countMark (s.beat.edgeAt (k - s.beat.fromPulse num)) value
      else s

/-- D of a marker that port `p` sends on occasion `k` (Table 11.12): the first flit slot begins less than one flit time after the beat
edge, at an instant that is free. -/
def State.markerD (s : State) (k p : Nat) : Nat :=
  (Config.pick k / 1024 ^ p) % ceilDiv 1024 (max 4 (popc (s.port p).active 8))

/-- The marker of a beat whose low 16 bits are 0 goes out on every trained port, once at that edge (R48, R341). -/
def State.markerSend (s : State) : State :=
  if s.beat.lock ≠ .timeLocked ∨ s.beat.mode = 1 then s
  else
    let sent := b2n (s.beat.markerSent == some s.edge)
    let s := s.advance (sent + toPulse (s.beat.system + sent) 0)
    let b := s.beat
    let s := s.modBeat fun b => { b with markerSent := some b.edge }
    let (k, s) := s.fresh
    ((List.range 17).filter fun p => (s.port p).carries).foldl (fun s p =>
      (s.fjlCnt p 9 1).emit p 2 (markerPayload (b.system / 65536) b.depthShown b.holdover (s.markerD k p))) s

/-! ## The rows of the beat unit -/

/-- PLL_LOCK (R501). -/
def execPllLock (s : State) : Answer := .next s.pllLock
/-- REFCLK_LOST (R476). -/
def execRefclkLost (s : State) : Answer := .next s.refclkLost
/-- BEAT_SYNC_PULSE (R50): the pulse arrives `cyc` cycles into the present beat. -/
def execBeatSyncPulse (cyc : Nat) (s : State) : Answer := .next (s.pulse cyc)
/-- SYNC_LOST (R51). -/
def execSyncLost (s : State) : Answer := .next s.syncLost
/-- HOLDOVER_EXPIRED (R51). -/
def execHoldoverExpired (s : State) : Answer := .next s.holdoverEnds
/-- NO_ROOT (R42). -/
def execNoRoot (s : State) : Answer := .next s.noRoot
/-- SEED_COMPARE (R47). -/
def execSeedCompare (s : State) : Answer := .next s.seedCompare
/-- MARKER (R48): port, ACK and credits, arrival, value, depth, HOLD and D. -/
def execMarker (port : Nat) (h : FlitHdr) (cyc value depth : Nat) (hold : Bool) (d : Nat) (s : State) : Answer :=
  .next (if (s.port port).carries then ((s.flitHdr port h).fjlCnt port 10 1).markerIn port cyc value depth hold d else s)
/-- MARKER_SEND (R341). -/
def execMarkerSend (s : State) : Answer := .next s.markerSend

end Sys2Proof.Machine
end

