-- ==== Sys2Proof/Machine/SelfTest.lean ====
section
/-!
DEFINITION. Targeted self-tests: what starts one, what holds it back, and the history of passes (R298 to R304, R308).
-/

namespace Sys2Proof.Machine

open Sys2Proof

/-! ## Locations -/

/-- The structure kind of a test's log record, in the order of Table 10.4 (DESIGN CHOICE, assumption 20). -/
def TestLoc.kind : TestLoc → Nat
  | .row .. => 0
  | .farPage _ => 1
  | .skilletBank .. => 2
  | .coreStore .. => 3
  | .coreLogic _ => 4
  | .d2dHalf .. => 5
  | .lane .. => 6

/-- The location of a test's log record (DESIGN CHOICE, assumption 20). -/
def TestLoc.place : TestLoc → Nat
  | .row s b r => s + 256 * b + 65536 * r
  | .farPage p => p
  | .skilletBank c b => c + 256 * b
  | .coreStore c w => c + 256 * w
  | .coreLogic c => c
  | .d2dHalf l h => h + 16 * l
  | .lane p l => p + 256 * l

/-- The core whose test holds it whole (Table 10.4). -/
def TestLoc.core : TestLoc → Option Nat
  | .skilletBank c _ => some c
  | .coreStore c _ => some c
  | .coreLogic c => some c
  | _ => none

/-- The two ends of a die-to-die link; 4 is the H-die (R9). -/
def linkEnds (l : Nat) : List Nat := if l < 4 then [l, 4] else [l % 4, (l + 1) % 4]

/-- The C-dies of a location. -/
def TestLoc.dies : TestLoc → List Nat
  | .row s _ _ => [sliceDie s]
  | .farPage _ => []
  | .skilletBank c _ => [coreDie c]
  | .coreStore c _ => [coreDie c]
  | .coreLogic c => [coreDie c]
  | .d2dHalf l _ => (linkEnds l).filter (· < 4)
  | .lane _ _ => []

/-- The address field of a record about a location (Table 17.6). -/
def TestLoc.addr : TestLoc → LogAddr
  | .row s b r => .stockpot s b r 0 0
  | .farPage p => .far 0 0 0 p
  | .skilletBank _ b => .skillet (64 * b)
  | .d2dHalf l h => .link 0 0xFF h l
  | .lane p l => .link p l 0 0
  | _ => .none

/-- A record about a location. -/
def TestLoc.ev (l : TestLoc) (code : Nat) : LogEv :=
  let e : LogEv := match l with
    | .row s _ _ => sliceEv s code
    | .farPage _ => { code := code, unit := 0xF5 }
    | .skilletBank c _ => { code := code, die := coreDie c, region := coreRegion c, core := c }
    | .coreStore c _ => { code := code, die := coreDie c, region := coreRegion c, core := c }
    | .coreLogic c => { code := code, die := coreDie c, region := coreRegion c, core := c }
    | .d2dHalf _ _ => { code := code, unit := 0xFF }
    | .lane p _ => portEv p code
  { e with addr := l.addr, sub := l.kind, extra := l.kind + 256 * l.place }

/-! ## Starting a test (R299, R304, R308) -/

/-- Die `d` is in BROWN_HOLD or DEGRADED_HOLD. -/
def State.dieHeld (s : State) (d : Nat) : Bool := (s.die d).st == .brownHold || (s.die d).st == .degradedHold

/-- A test of a core runs or is due: it holds the whole core (Table 10.4). -/
def State.coreTested (s : State) (n : Nat) : Bool := s.integ.tests.any fun t => t.loc.core == some n

/-- RGN_MAX as it acts (Table 10.11). -/
def IntegritySt.rgnLim (i : IntegritySt) : Nat := if i.rgnMax = 0 then 1 else min 2 i.rgnMax
/-- PKG_MAX as it acts (Table 10.11). -/
def IntegritySt.pkgLim (i : IntegritySt) : Nat := max 1 i.pkgMax

/-- Cores that run slices or targeted core tests (R308). -/
def IntegritySt.busyCores (i : IntegritySt) : List Nat :=
  (i.slices.map (·.1)) ++ (i.tests.filter (·.running)).filterMap fun t => t.loc.core

/-- The limits of R308 leave room for one more core of a region block. -/
def State.testRoom (s : State) (n : Nat) : Bool :=
  let b := s.integ.busyCores
  decide ((b.filter fun m => coreSlice m == coreSlice n).length < s.integ.rgnLim) && decide (b.length < s.integ.pkgLim)

/-- A test of a location may run as things stand: its domain is not held, and a core test has its core IDLE or waiting
in LOADING for it (R304, R308). -/
def State.testFree (s : State) (l : TestLoc) : Bool :=
  !(l.dies.any s.dieHeld) && match l.core with
    | none => true
    | some n => ((s.core n).st == .idle || (s.core n).st == .loading) && s.testRoom n

/-- A location is put under test (R299). One already under test is not tested twice; one whose domain is held is
deferred and counted (R304). -/
def State.startTest (s : State) (l : TestLoc) : State :=
  if s.integ.tests.any fun t => t.loc == l then s
  else
    let held := l.dies.any s.dieHeld
    let s := if held then s.icnt 25 1 else s
    let s := match l with
      | .row r bank row => s.modRegion r fun g => { g with testRows := g.testRows ++ [(bank, row)] }
      | _ => s
    s.modInteg fun i => { i with tests := i.tests ++ [{ loc := l, running := s.testFree l, deferred := held }] }

/-- A test that runs when its domain enters a hold runs no longer: it is deferred and counted, and starts anew after the hold
(R304; DEDUCED, assumption 58). -/
def State.deferTests (s : State) (d : Nat) : State :=
  let hit := fun (t : Test) => t.running && t.loc.dies.contains d
  let s := s.icnt 25 (s.integ.tests.filter hit).length
  s.modInteg fun i => { i with tests := i.tests.map fun t => if hit t then { t with running := false, deferred := true } else t }

/-- A targeted core test that waits could run now: it comes before a periodic slice (R308). -/
def State.coreTestDue (s : State) : Bool := s.integ.tests.any fun t => !t.running && t.loc.core.isSome && s.testFree t.loc

/-- Errors of a core's stores or logic put their structure under test (Table 10.4): code 0x20 names a Skillet bank by
its address, or another store by the low byte of the detail. -/
def State.coreError (s : State) (n code : Nat) (addr : LogAddr) (detail : Nat) : State :=
  if code = 0x20 then
    (s.icnt 14 1).startTest (match addr with
      | .skillet a => .skilletBank n (a / 64 % 128)
      | _ => .coreStore n (detail % 256))
  else if code = 0x24 then (s.icnt 15 1).startTest (.coreLogic n)
  else s

/-! ## The history of passes (R300) -/

/-- A passed test of a location joins the history; answers whether it is the third pass within 2^30 beats, which counts
as lasting. -/
def State.passed (s : State) (l : TestLoc) : Bool × State :=
  let h := s.integ.history
  let old := ((h.find? fun x => x.1 == l).map (·.2)).getD []
  let recent := old.filter fun e => s.edge ≤ e + 2 ^ 30
  let third := decide (2 ≤ recent.length)
  let s := if third then s.icnt 26 1 else s
  let entry := (l, recent ++ [s.edge])
  if h.any fun x => x.1 == l then
    (third, s.modInteg fun i => { i with history := modFirst (fun x => x.1 == l) (fun _ => entry) i.history })
  else if 256 ≤ h.length then
    (third, (s.modInteg fun i => { i with history := i.history.drop 1 ++ [entry] }).icnt 24 1)
  else (third, s.modInteg fun i => { i with history := i.history ++ [entry] })

/-! ## Retiring a core (R14) -/

/-- The state of a core after a core reset: its counters are kept, everything else is cleared (R111, R428). -/
def CoreSt.afterReset (c : CoreSt) (edge : Nat) : CoreSt :=
  { idleSince := edge
    seqCnt := c.seqCnt, sklCnt := c.sklCnt, xchCnt := c.xchCnt, stalls := c.stalls, seqCycles := c.seqCycles
    me := { cnt := c.me.cnt }
    ve := { cnt := c.ve.cnt }
    sm := { ldlCnt := c.sm.ldlCnt, colCnt := c.sm.colCnt } }

/-- Core `n` is retired: held in core reset from now on, code 0x29 (R14, Table 10.5). A command that waits on it in
LOADING stops and reruns without it (DESIGN CHOICE, assumption 21). -/
def State.retireCore (s : State) (n : Nat) : State :=
  if s.retired n then s
  else
    let s := s.modInteg fun i => { i with retired := i.retired ++ [n], tests := i.tests.filter fun t => t.loc.core != some n }
    let s := s.logEv { code := 0x29, die := coreDie n, region := coreRegion n, core := n }
    let a := (s.core n).cmd
    let s := match a with
      | none => s
      | some a => (s.voteNeg a false 0x14 0).stopCmd a 0x14 0 0 s.pkgIdField
    let s := s.modCore n fun c => { c.afterReset s.edge with inReset := true }
    match a with
    | none => s
    | some a => s.endAttempt a

end Sys2Proof.Machine
end

