-- ==== Sys2Proof/Machine/StreamEvents.lean ====
section
/-!
DEFINITION. The events of the stream and gather engines: granules that land, stores that are accepted, acknowledged
closes, and tiles that are written (R24, R28, R202, R203, R208 to R221, R286 to R296).
-/

namespace Sys2Proof.Machine

open Sys2Proof

/-! ## The rows and segments of a granule (R289, R290) -/

/-- An object byte of each segment that a granule touches. -/
def Granule.offsets (g : Granule) : List Nat :=
  let within := fun (o len : Nat) => (List.range ((len + 255) / 256 + 1)).map fun i => min (o + 256 * i) (o + len - 1)
  if g.kind = .gather then within g.obj g.span else g.pieces.flatMap fun p => within p.obj p.len

/-- The segments that a granule touches, where it was translated to (R259). -/
def State.granSegs (s : State) (g : Granule) : List (Nat × Nat × Nat × Nat) := (g.offsets.map (s.segAt g.home)).eraseDups

/-- A granule stores every byte of the segment that holds an object byte. -/
def Granule.covers (g : Granule) (off : Nat) : Bool :=
  (List.range 256).all fun i => g.pieces.any fun p =>
    decide (p.obj ≤ off / 256 * 256 + i) && decide (off / 256 * 256 + i < p.obj + p.len)

/-- The physical rows that a store writes, with the segments that it covers. -/
def State.granRows (s : State) (g : Granule) : List ((Nat × Nat × Nat) × Nat) :=
  let xs := (g.offsets.map fun o => (s.segAt g.home o, g.covers o)).eraseDups
  ((xs.map fun x => (x.1.1, x.1.2.1, x.1.2.2.1)).eraseDups).map fun k =>
    (k, maskOf (xs.filterMap fun x => if (x.1.1, x.1.2.1, x.1.2.2.1) = k then some (x.1.2.2.2, x.2) else none))

/-! ## Granules at their tier -/

/-- The granule that holds a tag, changed. -/
def State.modGran (s : State) (n tag : Nat) (f : Granule → Granule) : State :=
  s.modSm n fun m => { m with tags := vmod m.tags tag fun x => { x with g := x.g.map fun p => (p.1, f p.2) } }

/-- Rereads that passed, counted for the store that a granule reads (R286, Table 13.8). -/
def State.countRereads (s : State) (g : Granule) (k : Nat) : State :=
  let s := if g.tier = 0 then s.rgnCnt g.slice 0 k else if g.tier = 1 then s.icnt 10 k else s
  iter State.riskReread k s

/-- What Table 1.6 does with an access of core `n`: 0 it goes on, 1 it is held at the target, 2 it fails with 0x14. An
access from the held die itself completes (R418). -/
def State.accessState (s : State) (n : Nat) (g : Granule) : Nat :=
  let sts := g.slices.map fun r =>
    if (s.region r).inReset then 2
    else match (s.die (sliceDie r)).st with
      | .active => 0
      | .brownHold => if sliceDie r = coreDie n then 0 else 1
      | _ => 2
  let far := if g.tier = 1 ∧ (vget s.power.rails 8).st = 1 then 1 else 0
  maxL far sts

/-- A granule's access fails with code 0x14, and its tag returns to the pool: a store is refused (R28, R218). -/
def State.refuseGran (s : State) (n tag : Nat) : State :=
  let t := vget (s.core n).sm.tags tag
  match t.g with
  | none => s
  | some (e, g) =>
    if e ≠ t.epoch then s.dropStale n tag
    else (s.granFault n t.col g 0x14 g.obj).modSm n fun m => m.freeTag tag

/-- The data of a granule has arrived: it is delivered, or its tile joins the Whisk's queue (R208, R221). -/
def State.arrive (s : State) (n tag : Nat) : State :=
  match (vget (s.core n).sm.tags tag).g with
  | none => s
  | some (_, g) =>
    let s := s.modGran n tag fun g => { g with recon := none, replay := false, held := false }
    if g.kind = .whisk then s.modSm n fun m => { m with whiskQ := m.whiskQ ++ [tag] }
    else (s.deliver n tag).settle n

/-- An uncorrectable word of far memory under byte `off` of a version of an entry (R296, R502): logged with the channel and
page that hold it, its page is withheld until the object is freed. -/
def State.farFails (s : State) (idx : Nat) (v : Version) (sub rank off acceptNo : Nat) : State :=
  let page := v.farPage off
  let ch := s.tongs.channelOf page
  let s := ((s.icnt 10 1).icnt 11 1).logEv
    { code := 0x23, unit := 0xF5, inst := ch, addr := .far ch sub rank page, acceptNo := acceptNo }
  s.modInteg fun i =>
    if i.farWithheld.any fun p => p.1 == page then i else { i with farWithheld := i.farWithheld ++ [(page, idx)] }

/-- An uncorrectable word under a granule (R296, R297): the object is LOST, and the read faults 0x59 or loses its race
(R282). -/
def State.farLost (s : State) (n tag : Nat) (g : Granule) (sub rank off : Nat) : State :=
  match s.tongs.byHandle g.handle with
  | none => s
  | some o =>
    let col := (vget (s.core n).sm.tags tag).col
    let s := s.farFails o.idx g.home sub rank off ((s.core n).cmd.getD 0)
    let s := s.granFault n col g 0x59 g.obj
    (s.modSm n fun m => m.freeTag tag).makeLost o.idx

/-- A granule in flight with its tag's epoch meets its tier (R28, R286, R291 to R296). `fin` acts when it goes through. -/
def State.meet (s : State) (n tag : Nat) (o : GranOutcome) (fin : State → State) : State :=
  match (vget (s.core n).sm.tags tag).g with
  | none => s
  | some (_, g) =>
    if s.accessState n g = 2 then s.refuseGran n tag
    else if s.accessState n g = 1 then s.modGran n tag fun g => { g with held := true }
    else
      let wait := fun (s : State) (k : Nat × Nat × Nat × Nat) =>
        (s.claimRebuild k).modGran n tag fun g => { g with recon := some k }
      let segs := if g.tier = 0 then s.granSegs g else []
      let served := segs.filter fun k => (s.rebuildOf k).any fun e => e.done
      match segs.find? fun k => (s.rebuildOf k).any fun e => !e.done with
      | some k => wait s k
      | none => match o with
        | .ok r => fin ((s.countRereads g r).rgnCnt g.slice 15 (if g.tier = 0 then served.length else 0))
        | .replay => s.modGran n tag fun g => { g with replay := true }
        | .recon r off =>
          let k := s.segAt g.home off
          if g.tier = 0 ∧ segs.contains k = true ∧ !served.contains k then
            wait ((s.countRereads g r).rgnCnt k.1 0 1 |>.rgnCnt k.1 1 1) k
          else s
        | .farBad sub rank off => if g.tier = 1 then s.farLost n tag g sub rank off else s

/-- A fetch or gather granule's response arrives (R203, R208). A granule of the host tier that asked the host lands by
the host's reply. -/
def State.landGran (s : State) (n tag : Nat) (o : GranOutcome) : State :=
  let t := vget (s.core n).sm.tags tag
  match t.g with
  | none => s
  | some (e, g) =>
    if g.kind = .store ∨ g.kind = .scatter ∨ g.hostTags ≠ [] ∨ g.recon.isSome ∨ (s.core n).sm.whiskQ.contains tag = true then s
    else if e ≠ t.epoch then (s.dropStale n tag).settle n
    else s.meet n tag o fun s => s.arrive n tag

/-- The cores of a command go on. -/
def State.settleCmd (s : State) (cmd : Option Nat) : State :=
  (List.range 192).foldl (fun s n => if (s.core n).cmd = cmd ∧ (s.core n).busy = true then s.settle n else s) s

/-- A store or scatter granule is accepted by its tier (R208, R210): in the Stockpot it joins the writes of its rows, and
is applied to the rebuild buffer too (R290, R292). -/
def State.storeDone (s : State) (n tag : Nat) : State :=
  match (vget (s.core n).sm.tags tag).g with
  | none => s
  | some (_, g) =>
    let cmd := (s.core n).cmd
    let s := if g.tier = 0 then (s.granRows g).foldl (fun s x => s.storeRow x.1.1 x.1.2.1 x.1.2.2 x.2) s else s
    let s := s.accept n tag
    (if g.tier = 0 then g.slices.foldl State.refreshRebuild s else s).settleCmd cmd

/-- A Press-coded granule finds no room in the merge buffer: it waits (R275). -/
def State.mergeFull (s : State) (n : Nat) (g : Granule) : Bool :=
  g.home.press && match s.tongs.byHandle g.handle, (s.core n).cmd with
    | some o, some a => !s.tongs.mergeRoom o.idx a (blocksOf g.ranges)
    | _, _ => false

/-- A store or scatter granule's answer arrives (R208, R218, R290). A store to a RAW host page is answered by the host. -/
def State.storeIn (s : State) (n tag : Nat) (o : GranOutcome) : State :=
  match (vget (s.core n).sm.tags tag).g with
  | none => s
  | some (_, g) =>
    if (g.kind ≠ .store ∧ g.kind ≠ .scatter) ∨ g.hostTags ≠ [] ∨ g.recon.isSome ∨ s.mergeFull n g = true then s
    else s.meet n tag o fun s => s.storeDone n tag

/-- A tier acknowledges the close of a watched descriptor (R211): with no granule stale the last acknowledgement
completes it; otherwise the close is repeated after the refetch. -/
def State.closeAck (s : State) (n id idx : Nat) : State :=
  match (s.core n).sm.desc id idx with
  | none => s
  | some d =>
    if d.closes = 0 then s
    else
      let s := s.modSm n fun m => m.modDesc id idx fun d => { d with closes := d.closes - 1 }
      (s.checkDesc n id idx).settle n

/-- The Whisk has written the tile that it works on (R221). -/
def State.tileDone (s : State) (n : Nat) : State :=
  match (s.core n).sm.whiskQ with
  | [] => s
  | tag :: rest =>
    let s := s.modSm n fun m => { m with whiskQ := rest }
    let t := vget (s.core n).sm.tags tag
    match t.g with
    | none => s
    | some (e, _) => (if e ≠ t.epoch then s.dropStale n tag else s.deliver n tag).settle n

/-! ## Errors of the host tier (R92, R216, R217, R279) -/

/-- A page of a granule is not mapped: a run-ahead granule is dropped and counted (R217); otherwise fault 0x1C, and the
command is to be HELD (R216), or the race is lost (R92). -/
def State.notMapped (s : State) (n tag off : Nat) : State :=
  let t := vget (s.core n).sm.tags tag
  match t.g with
  | none => s
  | some (e, g) =>
    if e ≠ t.epoch then s.dropStale n tag
    else
      let d := (s.core n).sm.desc g.xfer g.desc
      let race := (s.core n).sm.xfer g.xfer |>.any fun x => x.e.race.isSome
      if !t.col ∧ !race ∧ g.kind = .fetch ∧ (d.any fun d => d.d.ra) = true then
        let s := s.modSm n fun m =>
          (m.freeTag tag).modDesc g.xfer g.desc fun d => { d with outstanding := d.outstanding - 1, dropped := d.dropped + 1 }
        ((s.modCore n fun c => c.ldlBump 6 1).checkDesc n g.xfer g.desc).settle n
      else
        let s := if race && !t.col then s else match (s.core n).cmd with
          | none => s
          | some a => s.modCmd a fun c => { c with heldAt := (g.handle, off) }
        ((s.granFault n t.col g 0x1C off).modSm n fun m => m.freeTag tag).settle n

/-! ## The rows -/

/-- GRANULE_LANDED (R208): the granule that holds tag `tag` of core `core`. -/
def execGranuleLanded (core tag : Nat) (o : GranOutcome) (s : State) : Answer := .next (s.landGran core tag o)
/-- STORE_ACCEPTED (R208). -/
def execStoreAccepted (core tag : Nat) (o : GranOutcome) (s : State) : Answer := .next (s.storeIn core tag o)
/-- WATCH_CLOSE_ACK (R211): one tier's acknowledgement for descriptor `idx` of XFER `id`. -/
def execWatchCloseAck (core id idx : Nat) (s : State) : Answer := .next (s.closeAck core id idx)
/-- WHISK_TILE_WRITTEN (R221). -/
def execWhiskTileWritten (core : Nat) (s : State) : Answer := .next (s.tileDone core)

end Sys2Proof.Machine
end

