-- ==== Sys2Proof/Machine/Dies.lean ====
section
/-!
DEFINITION. Dies that leave service, die-to-die links and their halves (R24 to R28, R298, R421, R422).
-/

namespace Sys2Proof.Machine

open Sys2Proof

/-- An attempt of a command that uses a core of a die and can still be stopped: it is past its start and the package
has not voted COMMIT. -/
def Cmd.onDie (c : Cmd) (d : Nat) : Bool :=
  [.staging, .running, .commitWait, .preparing, .prepared].contains c.stage && (c.cores.any fun n => coreDie n == d)
    && c.group.all fun g => g.voted != some 1 && g.decision.isNone && g.deciding.isNone

/-- Every command that uses a core of die `d` stops under R93 with code 0x14, each with one record (R27, R421, R422). -/
def State.abortDie (s : State) (d : Nat) : State :=
  (s.cmd.cmds.filter fun c => c.onDie d).foldl (fun s c =>
    let a := c.acceptNo
    let s := s.logEv { code := 0x14, die := d, unit := 0xF1, inst := d, acceptNo := a }
    (s.voteNeg a false 0x14 0).stopAttempt a 0x14 0 0 s.pkgIdField) s

/-- Granules of a core that are held at a slice of a die. -/
def CoreSt.heldAt (c : CoreSt) (d : Nat) : List Nat :=
  (List.range 64).filter fun t => (vget c.sm.tags t).g.any fun p => p.2.held && p.2.slices.any fun r => sliceDie r == d

/-- Accesses held at a die's slices fail with code 0x14 (Table 1.6). -/
def State.failHeld (s : State) (d : Nat) : State :=
  (List.range 192).foldl (fun s n => ((s.core n).heldAt d).foldl (fun s t => s.refuseGran n t) s) s

/-- A version has an extent in a slice of die `d`. -/
def Version.atDie (v : Version) (d : Nat) : Bool := v.tier == 0 && v.wheres.any fun w => sliceDie (w / 8192) == d

/-- The fill of a CREATE cannot go on: its extents are freed and the request FAILS (R28, R255). -/
def State.failFill (s : State) (c : Cmd) (o : Obj) (code : Nat) : State :=
  ((((s.dropVersion o.owner o.cur).modObj o.idx fun o => { o with cur := { o.cur with wheres := [], charge := 0 } }).failObj
    c.acceptNo code 0).dropCreate c).goObjects

/-- Moves, staging copies and fills that read or write a slice of a die fail with code 0x14 (R28, Table 1.6). -/
def State.failCopies (s : State) (d : Nat) : State :=
  let moves := s.tongs.moves.filter fun m => m.tgt.atDie d || (s.tongs.byIdx m.idx).any fun o => o.cur.atDie d
  let s := moves.foldl (fun s m => (s.giveUpMove m.idx 0x14).unlocked m.idx) s
  let stages := (s.cmd.cmds.filter fun c => c.stage == .staging).filterMap fun c =>
    (c.objs.find? fun u => !u.copied && ((u.staged.any fun v => v.atDie d)
      || (s.tongs.byHandle u.handle).any fun o => o.cur.atDie d)).map fun u => (c.acceptNo, u.handle)
  let s := stages.foldl (fun s x => s.copyFails x.1 x.2 0x14 0) s
  let s := s.cmd.cmds.foldl (fun s c => match s.createdBy c with
    | some o => if o.cur.atDie d then s.failFill c o 0x14 else s
    | none => s) s
  if s.tongs.waits = [] then s else s.retryWaits

/-- A die becomes UNREACHABLE (R27): its commands abort, and what waits at its slices fails. -/
def State.unreachable (s : State) (d : Nat) : State :=
  if (s.die d).st = .unreachable then s
  else (((s.modDie d fun x => { x with st := .unreachable, causes := [], holdDue := none }).abortDie d).failHeld d).failCopies d

/-! ## Halves of a die-to-die link (R24, R25, R298) -/

/-- Die-to-die link `l`: CH0 to CH3, CC01, CC12, CC23, CC30. -/
def State.link (s : State) (l : Nat) : D2D := vget s.links l

/-- A half carries traffic. -/
def D2D.carries (x : D2D) (h : Nat) : Bool := vget x.up h && !vget x.dropped h && !vget x.testing h

/-- The link is down: each half is dropped or under test, so that nothing remains to carry its traffic (R25, R298). -/
def D2D.down (x : D2D) : Bool := [0, 1].all fun h => vget x.dropped h || vget x.testing h

/-- A CH link that is down makes its die UNREACHABLE (R27). -/
def State.linkFalls (s : State) (l : Nat) : State := if l < 4 ∧ (s.link l).down = true then s.unreachable l else s

/-- D2D_RETRANSMIT: counted, and the eighth within 2^20 beats puts the half under test (R24, R298). -/
def State.retransmit (s : State) (l h : Nat) : State :=
  if 8 ≤ l ∨ 2 ≤ h ∨ !(s.link l).carries h then s
  else
    let s := s.icnt l 1
    let r := ((vget (s.link l).recent h).filter fun e => s.edge < e + 2 ^ 20) ++ [s.edge]
    if 8 ≤ r.length then
      ((s.modLink l fun x => { x with recent := vset x.recent h [], testing := vset x.testing h true }).startTest
        (.d2dHalf l h)).linkFalls l
    else s.modLink l fun x => { x with recent := vset x.recent h r }

/-- A half is dropped as lasting (R25, Table 10.5): code 0x2B, risk input 3. -/
def State.dropHalf (s : State) (l h : Nat) : State :=
  let s := s.modLink l fun x => { x with dropped := vset x.dropped h true, testing := vset x.testing h false }
  ((s.logEv { TestLoc.ev (.d2dHalf l h) 0x2B with sub := 0, extra := 0 }).addRisk 3).linkFalls l

/-- D2D_RETRANSMIT (R24): half `half` of link `link` of Table 10.15. -/
def execD2dRetransmit (link half : Nat) (s : State) : Answer := .next (s.retransmit link half)

end Sys2Proof.Machine
end

