-- ==== Sys2Proof/Machine/Fjarner.lean ====
section
/-!
DEFINITION. The Fjarner ports: flits received, replay, width changes, training, markers' and keepalives' link side
(R312 to R330, R339 to R346, R506).
-/

namespace Sys2Proof.Machine

open Sys2Proof

/-! ## Lane sets (R323, R324) -/

/-- Lanes that LANE_OFF does not exclude and DROPPED does not mark. -/
def Port.allowed (p : Port) : Nat := maskMinus (maskMinus 0xFF p.laneOff) p.dropped

/-- The active set that the port should have: allowed lanes that training kept and no test holds. -/
def Port.wanted (p : Port) : Nat := maskMinus (maskMinus p.allowed p.excluded) p.testing

/-- The port is enabled (R314). -/
def State.portOn (s : State) (p : Nat) : Bool :=
  p == 16 || (decide (p < 16) && s.cfg.valid && s.ringSize (p / 4) != 1)

/-! ## Replay (R319 to R321) -/

/-- DATA flits sent again in order, each with its own SEQ and the ACK and credits of now (R319, R320). -/
def Port.resent (p : Port) (fs : List TxFlit) : Port := fs.foldl (fun q f => q.emit 1 f.payload f.seq f.mstart f.vc) p

/-- DATA flits sent again, from one on: counted, and risk input 2 for each 1,024 of them. -/
def State.resend (s : State) (p seq : Nat) : State :=
  let fs := (s.port p).unacked.dropWhile fun f => f.seq != seq
  let n := fs.length
  if n = 0 then s
  else
    let s := (s.fjlCnt p 6 n).modPort p fun q => q.resent fs
    let t := s.lid.riskFlits + n
    iter (fun s => s.addRisk 2) (t / 1024) (s.modLid fun l => { l with riskFlits := t % 1024 })

/-- The replay from the oldest flit that is not acknowledged. -/
def State.resendAll (s : State) (p : Nat) : State :=
  match (s.port p).unacked with
  | [] => s
  | f :: _ => s.resend p f.seq

/-! ## States of a port (R324, R339, R506) -/

/-- Full training begins from DETECT (R339): credits, buffers and sequence state are let go (R325, R338). -/
def Port.train (p : Port) (edge : Nat) : Port :=
  { p with
    st := .training, step := .detect, active := 0, excluded := 0, ownCheck := none, farVerdict := none, echoes := []
    unacked := [], waiting := Vector.replicate 6 [], rxBytes := Vector.replicate 6 [], rxMsgs := [], nakOut := false
    rxCount := Vector.replicate 6 0, rxFrom := Vector.replicate 6 0, rxReturned := Vector.replicate 6 0, ackTold := none
    nakRun := 0, widthTo := none, agreeRun := 0, since := edge }

/-- The port starts full training. -/
def State.train (s : State) (p : Nat) : State := s.modPort p fun q => q.train s.edge

/-- LOCK and IDENTIFY begin again, with sequence state, buffers and credits kept (R321, R339). -/
def State.relock (s : State) (p : Nat) : State :=
  (s.modPort p fun q =>
    { q with
      st := .retraining, step := .lock, ownCheck := none, farVerdict := none, echoes := [], nakRun := 0, nakOut := false
      widthTo := none, agreeRun := 0, since := s.edge }).fjlCnt p 7 1

/-- A port that carries traffic starts a retrain (R321, R339, R345). -/
def State.retrain (s : State) (p : Nat) : State := if (s.port p).carries then s.relock p else s

/-- The port goes DOWN with a code; 0x62 has its own detail (R339). -/
def State.portDown (s : State) (p code detail : Nat) : State :=
  let e := portEv p code
  let s := s.logEv (if detail = 0 then e else { e with sub := detail, cause := p })
  s.modPort p fun q => { q with st := .down, active := 0, widthTo := none, since := s.edge }

/-- A training step fails: a retrain falls back to full training, and full training goes DOWN (R339, R506). -/
def State.stepFails (s : State) (p code detail : Nat) : State :=
  if (s.port p).st = .retraining then s.train p
  else if (s.port p).st = .training then s.portDown p code detail
  else s

/-! ## Width changes (R323) -/

/-- A width change to a mask begins at this end: DATA stops, and WIDTH flits name the mask. -/
def State.startWidth (s : State) (p mask : Nat) : State :=
  if (s.port p).carries ∧ 4 ≤ popc mask 8 then
    (s.modPort p fun q => { q with widthTo := some mask }).emit p 7 [toB mask]
  else s

/-- The port has received a WIDTH flit that names a mask (R323): an end that has not started the change answers it; the
port resumes at the new width with a replay. -/
def State.widthIn (s : State) (p mask : Nat) : State :=
  let q := s.port p
  if !q.carries ∨ popc mask 8 < 4 then s
  else
    let s := if q.widthTo.isNone then s.emit p 7 [toB mask] else s
    if q.widthTo.isSome ∧ q.widthTo ≠ some mask then s
    else
      let s := (s.modPort p fun q => { q with active := mask, widthTo := none, flitNo := 0 }).fjlCnt p 8 1
      (s.resendAll p).pump p

/-! ## Lane tests (R298, R322, R323) -/

/-- A lane is attributed an uncorrectable codeword (R322): with more than 4 active lanes it is tested; on a port of 4,
three attributions within 2^20 beats take the port through full training. A lane under test is only counted (R304). -/
def State.attribute (s : State) (p l : Nat) : State :=
  let s := s.modPort p fun q => { q with attrib := vmod q.attrib l fun x => min 255 (x + 1) }
  if laneBit (s.port p).testing l then s
  else if 4 < popc (s.port p).active 8 ∧ 4 < popc (s.port p).wanted 8 then
    let s := s.startTest (.lane p l)
    let s := s.modPort p fun q => { q with testing := maskPlus q.testing (2 ^ l) }
    s.startWidth p (s.port p).wanted
  else
    let es := ((s.port p).attribEdges.filter fun e => s.edge < e + 2 ^ 20) ++ [s.edge]
    if 3 ≤ es.length then (s.modPort p fun q => { q with attribEdges := [] }).train p
    else s.modPort p fun q => { q with attribEdges := es }

/-- A lane leaves its test (R301, R323): restored, or dropped with code 0x64 and risk input 3. -/
def State.laneTested (s : State) (p l : Nat) (lasting : Bool) : State :=
  let s := s.modPort p fun q =>
    { q with testing := maskMinus q.testing (2 ^ l), dropped := if lasting then maskPlus q.dropped (2 ^ l) else q.dropped }
  let s := if lasting then (s.logEv { portEv p 0x64 with addr := .link p l 0 0 }).addRisk 3 else s
  s.startWidth p (s.port p).wanted

/-- The lane that carried the most corrected bytes over the 1,024 flits before the one being received, the lowest of equals (R322). -/
def Port.worstLane (p : Port) : Option Nat :=
  let sums := (List.range 8).map fun l =>
    (l, sumL (p.window.map fun w => if w.2.1 = l ∧ p.rxTotal ≤ w.1 + 1024 then w.2.2 else 0))
  let top := maxL 0 (sums.map (·.2))
  if top = 0 then none else (sums.find? fun x => x.2 == top).map (·.1)

/-! ## Receiving flits (R318, R320, R328, R330) -/

/-- A NAK that names the expected SEQ. -/
def State.sendNak (s : State) (p : Nat) : State :=
  let s := (s.modPort p fun q => { q with nakOut := true }).fjlCnt p 5 1
  s.emit p 4 (nakPayload (s.port p).rxExpect)

/-- A DATA flit discarded: a NAK goes out at once, unless one is out for this SEQ (R320). -/
def State.discardFlit (s : State) (p : Nat) : State := if (s.port p).nakOut then s else s.sendNak p

/-- Messages of class 0 for a unit of this package that no unit has taken yet, on all ports (R327). -/
def State.ctrlStored (s : State) (unit : Nat) : Nat :=
  (s.ports.toList.flatMap (·.rxMsgs)).countP fun m =>
    mtypeClass (rxType m.bytes) == 0 && rxUnit m.bytes == unit && (rxBcast m.bytes || rxDst m.bytes == s.cfg.pkgId)

/-- The copies of a broadcast that finds no room here go on (R327, R336). -/
def State.relayBcast (s : State) (m : List Byte) : State :=
  let arg := bitsOf (leAt m 0 8) 41 0
  let msg : Msg :=
    { body := .raw m, src := rxSrc m, dunit := rxUnit m, sunit := rxSunit m, tag := rxTag m
      box := some (bitsOf arg 27 14, bitsOf arg 41 28) }
  s.spreadBcast msg (some (bitsOf arg 9 8, bitOf (leAt m 0 8) 59, bitsOf arg 13 10, bitOf (leAt m 0 8) 60))

/-- A whole message has been received on a port (R327, R330): kept to be acted on or forwarded, or discarded. Only messages for
this package take a place in the stores of its units. -/
def State.messageIn (s : State) (p : Nat) (m : RxMsg) : State :=
  let t := rxType m.bytes
  if rxBad (p == 16) m.bytes then s.rxInvalid p (rxSrc m.bytes)
  else if mtypeClass t = 0 ∧ (rxBcast m.bytes = true ∨ rxDst m.bytes = s.cfg.pkgId) ∧ 64 ≤ s.ctrlStored (rxUnit m.bytes) then
    let s := s.logEv { portEv p 0x69 with pkg := rxSrc m.bytes }
    if rxBcast m.bytes then s.relayBcast m.bytes else s
  else s.modPort p fun q => { q with rxMsgs := q.rxMsgs ++ [m] }

/-- Message bytes of a channel cut into messages (R328); `first` is the DATA flit that the first of them lie in, `last` the one
received. A header of MTYPE 0 is padding to the end of its flit. Answers the bytes left and the flit that they begin in. -/
def State.cutMessages (p vc last : Nat) : Nat → Nat → List Byte → State → List Byte × Nat × State
  | 0, first, bs, s => (bs, first, s)
  | fuel + 1, first, bs, s =>
    if bs.length < 16 then (bs, first, s)
    else if rxType bs = 0 then ([], last, s)
    else
      let n := msgBytes (rxLen bs)
      if bs.length < n then (bs, first, s)
      else State.cutMessages p vc last fuel last (bs.drop n) (s.messageIn p { vc := vc, first := first, last := last, bytes := bs.take n })

/-- The payload of an accepted DATA flit joins its channel and takes a slot of its input buffer (R325). A remainder of zeros before
a flit that starts a message at its first byte was padding. -/
def State.payloadIn (s : State) (p : Nat) (f : DataFlit) : State :=
  let q := s.port p
  let old := vget q.rxBytes f.pvc
  let old := if f.mstart = 0 ∧ (old.all (· == 0)) = true then [] else old
  let no := vget q.rxCount f.pvc
  let bs := old ++ f.payload
  let s := s.modPort p fun q => { q with rxCount := vmod q.rxCount f.pvc fun x => x + 1 }
  let r := State.cutMessages p f.pvc no (bs.length / 16 + 1) (if old.isEmpty then no else vget q.rxFrom f.pvc) bs s
  r.2.2.modPort p fun q => { q with rxBytes := vset q.rxBytes f.pvc r.1, rxFrom := vset q.rxFrom f.pvc r.2.1 }

/-- The input buffer of a channel has a slot for a DATA flit (R325). -/
def Port.rxRoom (p : Port) (vc : Nat) : Bool := decide (p.slotsUsed vc < vget vcSlots vc)

/-- A flit of 256 bytes is received on a port (R316 to R320). -/
def State.flit (s : State) (p : Nat) (raw : List Byte) : State :=
  if !(s.port p).carries ∨ raw.length ≠ 256 then s
  else
    let f := raw.map (·.toNat)
    let (d, pos, bad) := fecDecode f
    let lane := (s.port p).worstLane
    let s := s.modPort p fun q => q.corrections pos
    if 0 < bad then
      let s := (s.fjlCnt p 3 bad).flitIn p
      let s := s.discardFlit p
      match lane with
      | none => s
      | some l => iter (fun s => s.attribute p l) bad s
    else
      let x := flitFields d
      if flitCrc d ≠ crc64 (d.take 232) then ((s.fjlCnt p 4 1).flitIn p).discardFlit p
      else if 9 ≤ x.ftype then s.flitIn p
      else
        let s := s.flitHdr p x.h
        if x.ftype ≠ 1 then s
        else if x.seq ≠ (s.port p).rxExpect ∨ !(s.port p).rxRoom x.pvc then s.discardFlit p
        else
          let s := s.modPort p fun q => { q with rxExpect := (q.rxExpect + 1) % 4096, rxLast := some x.seq, nakOut := false }
          (s.fjlCnt p 1 1).payloadIn p x

/-- A NAK (R320, R321): the transmitter resends from the SEQ it names; the eighth in a row that names one SEQ retrains
the port. -/
def State.nakIn (s : State) (p seq : Nat) : State :=
  if !(s.port p).carries then s
  else
    let run := if (s.port p).nakSeq = seq then (s.port p).nakRun + 1 else 1
    let s := s.modPort p fun q => { q with nakSeq := seq, nakRun := run }
    if 8 ≤ run then (s.logEv (portEv p 0x66)).retrain p else s.resend p seq

/-! ## Training (R339, R340) -/

/-- The far end's IDENT passes the identity check (R339). -/
def State.identOk (s : State) (p : Nat) (i : IdentFlit) : Bool :=
  if p = 16 then i.role
  else
    let k := p / 4
    let minus := p / 2 % 2 == 1
    let me := s.cfg.pkgId
    let n := s.ringSize k
    let x := if minus then (coord me k + n - 1) % n else (coord me k + 1) % n
    !i.role && i.rings == s.cfg.na + 16 * s.cfg.nb + 256 * s.cfg.nc + 2048 * 7 && i.pkg == withCoord me k x
      && i.port == fabricPort k (!minus) (p % 2)

/-- The port is in IDENTIFY. -/
def Port.identifies (p : Port) : Bool := (p.st == .training || p.st == .retraining) && p.step == .identify

/-- The IDENT that the port sends (R339). -/
def State.ownIdent (s : State) (p : Nat) (verdict reject : Bool) : IdentFlit :=
  { pkg := s.cfg.pkgId, port := p, role := false, rings := s.cfg.na + 16 * s.cfg.nb + 256 * s.cfg.nc + 2048 * 7, mode := s.beat.mode,
    verdict := verdict, reject := reject }

/-- The port sends IDENT. -/
def State.sendIdent (s : State) (p : Nat) (verdict reject : Bool) : State := s.emit p 5 (s.ownIdent p verdict reject).payload

/-- An IDENT flit (R339). -/
def State.identIn (s : State) (p : Nat) (i : IdentFlit) : State :=
  if !(s.port p).identifies then s
  else
    let ok := s.identOk p i
    let s := s.modPort p fun q =>
      { q with
        neighValid := true, neighRole := i.role, neighPort := i.port % 32, neighPkg := i.pkg, ownCheck := some ok
        farVerdict := if i.reject then some false else if i.verdict then some true else q.farVerdict }
    if i.reject then s.stepFails p 0x62 2
    else s.sendIdent p ok (!ok)

/-- An ECHO flit (R340): one of the far end, with its cycle count, is returned with the cycles that it was held; one of this end's
gives round trip less hold time, in cycles. -/
def State.echoIn (s : State) (p : Nat) (own : Bool) (cycles hold : Nat) : State :=
  if !(s.port p).identifies then s
  else if own then s.modPort p fun q => if q.echoes.length < 64 then { q with echoes := q.echoes ++ [cycles - hold] } else q
  else s.emit p 6 (echoPayload true cycles hold)

/-- The 64 ECHO flits of IDENTIFY go out (R340), each with the cycle count at its instant, which is free. -/
def State.sendEchoes (s : State) (p : Nat) : State :=
  (List.range 64).foldl (fun s _ =>
    let (k, s) := s.fresh
    s.emit p 6 (echoPayload false (Config.pick k) 0)) s

/-- The one-way latency in quarter cycles: the mean over the exchanges of half of (round trip − hold). -/
def Port.latency (p : Port) : Nat := 2 * sumL p.echoes / 64

/-- A HOST_READ of a page is sent for a unit (R278). -/
def State.askPage (s : State) (sunit addr len : Nat) (o : HostOwner) : State :=
  let (tag, s) := s.freshTag
  let s := s.sendHost sunit tag (.hostRead addr len)
  { s with hostReqs := s.hostReqs ++ [{ tag := tag, write := false, addr := addr, len := len, owner := o, sentEdge := s.edge }] }

/-- The boot ROM begins to read its image from the boot window of the host adapter (R439), once the host port is
ACTIVE. -/
def State.bootAsk (s : State) : State :=
  let boots := s.power.stage == 1 && !s.power.failed && !s.power.inReset && (s.power.bootSrc == 3 || s.power.bootSrc == 0)
  let asked := s.hostReqs.any fun r => match r.owner with
    | .boot _ => true
    | _ => false
  if boots && !asked && s.fw.got == 0 && decide ((s.port 16).st = .active) then s.askPage 0xFF 0 4096 (.boot 0) else s

/-- IDENTIFY ends (R339): with both verdicts passed and the latency measured the port goes ACTIVE on the lanes that both
ends kept. Full training starts sequence numbers and credits anew; a retrain goes on with a replay from the SEQ that the far end
expects (R321, R325). -/
def State.identified (s : State) (p lanes expect : Nat) : State :=
  let q := s.port p
  if !q.identifies ∨ q.ownCheck ≠ some true ∨ q.farVerdict ≠ some true ∨ q.echoes.length < 64 then s
  else if 408 < q.latency then s.stepFails p 0x63 0
  else
    let act := maskBoth lanes q.wanted
    if popc act 8 < 4 then s.stepFails p 0x65 0
    else
      let fresh := q.st == .training
      let s := s.modPort p fun q =>
        let q := { q with st := .active, active := act, lat := q.latency, flitNo := 0, lastKeepalive := s.edge, agreeRun := 0 }
        if fresh then { q with credits := vcSlots, txSeq := 0, rxExpect := 0, rxLast := none, nakSeq := 0 } else q
      let s := if fresh then s else s.resend p expect
      (s.pump p).sendPair.bootAsk

/-- DETECT, EQUALISE or LOCK ends with a set of lanes (R339): fewer than 4 fail the step. IDENTIFY begins with an IDENT
without a verdict and its own ECHO flits (R340). -/
def State.stepDone (s : State) (p : Nat) (st next : TrainStep) (lanes code : Nat) : State :=
  let q := s.port p
  if (q.st ≠ .training ∧ q.st ≠ .retraining) ∨ q.step ≠ st then s
  else
    let q' := { q with excluded := maskPlus q.excluded (maskMinus 0xFF lanes) }
    if popc q'.wanted 8 < 4 then s.stepFails p code 0
    else
      let s := s.modPort p fun q => { q with excluded := q'.excluded, step := next, since := s.edge }
      if next = .identify then (s.sendIdent p false false).sendEchoes p else s

/-- The limit of a step in whole beats (Table 11.11): 1 ms is 26,562.5 beats. -/
def TrainStep.limit : TrainStep → Nat
  | .detect => 26563
  | .equalise => 531250
  | .lock => 265625
  | .identify => 26563

/-- A step exceeds its limit (R339): the clock runs to it. IDENTIFY without a passed check and a passed verdict is code 0x62, with
its detail; without either end's identity it has none. -/
def State.stepLate (s : State) (p : Nat) : State :=
  let q := s.port p
  if q.st ≠ .training ∧ q.st ≠ .retraining then s
  else
    let due := q.since + q.step.limit
    let s := s.toEdge due
    if s.edge < due then s
    else match q.step with
      | .lock => s.stepFails p 0x65 0
      | .identify => match q.ownCheck, q.farVerdict with
        | some false, _ => s.stepFails p 0x62 1
        | some true, none => s.stepFails p 0x62 3
        | none, _ => s.stepFails p 0x62 0
        | _, _ => s.stepFails p 0x60 0
      | _ => s.stepFails p 0x60 0

/-- A DOWN port tries again 2^25 beats after it went DOWN (R339). -/
def State.trainRetry (s : State) (p : Nat) : State :=
  if (s.port p).st ≠ .down ∨ !s.portOn p then s
  else
    let s := s.toEdge ((s.port p).since + 2 ^ 25)
    if s.edge < (s.port p).since + 2 ^ 25 then s else s.train p

/-- Lock is lost until fewer than 4 of the active lanes are usable (R506): a port that retrains begins its retrain again. -/
def State.lockLost (s : State) (p lanes : Nat) : State :=
  let q := s.port p
  if popc (maskBoth q.active lanes) 8 < 4 ∧ (q.carries ∨ q.st = .retraining) then s.relock p else s

/-! ## Keepalives (R343 to R345) -/

/-- The 64-bit fingerprint in effect at a beat (R344, R442). -/
def State.fpAt (s : State) (b : Nat) : Nat :=
  if s.beat.lock = .timeLocked ∧ b < s.cfg.prevFpBeat ∧ s.now ≤ s.cfg.prevFpBeat + 8192 then leAt s.cfg.prevFp 0 8
  else leAt s.cfg.fp 0 8

/-- A KEEPALIVE flit (R344). -/
def State.keepIn (s : State) (p : Nat) (k : KeepFlit) : State :=
  if !(s.port p).carries then s
  else
    let s := (s.modPort p fun q => { q with fpRx := k.fp, lastKeepalive := s.edge }).fjlCnt p 11 1
    if 16 ≤ p then s
    else if k.fp = s.fpAt k.beat then
      if (s.port p).st ≠ .mismatch then s
      else if 1 ≤ (s.port p).agreeRun then
        ((s.modPort p fun q => { q with st := .active, agreeRun := 0, flitNo := 0 }).logEv (portEv p 0x6B)).pump p
      else s.modPort p fun q => { q with agreeRun := 1 }
    else
      let s := (s.modPort p fun q => { q with agreeRun := 0 }).fjlCnt p 12 1
      if (s.port p).st = .mismatch then s
      else (s.modPort p fun q => { q with st := .mismatch }).logEv { portEv p 0x72 with pkg := k.pkg }

/-- STATE of a keepalive (Table 11.13). -/
def State.keepState (s : State) (p : Nat) : Nat :=
  let l := match s.beat.lock with
    | .unlocked => 0
    | .freqLocked => 1
    | .phaseLocked => 2
    | .timeLocked => 3
  l + 4 * s.beat.mode + 16 * (popc (s.port p).active 8 - 4)

/-- The keepalive that a port sends (Table 11.13). -/
def State.ownKeep (s : State) (p : Nat) : KeepFlit :=
  { pkg := s.cfg.pkgId, port := p, st := s.keepState p, fp := leAt s.cfg.fp 0 8, beat := s.now }

/-- The keepalives of the next beat whose low 12 bits are 0x800 (R343). -/
def State.keepSend (s : State) : State :=
  if s.beat.lock = .unlocked then s
  else
    let n := (4096 + 0x800 - s.beat.system % 4096) % 4096
    let s := s.advance (if n = 0 then 4096 else n)
    ((List.range 17).filter fun p => (s.port p).carries).foldl (fun s p => s.emit p 3 (s.ownKeep p).payload) s

/-- No valid keepalive for 12,288 beats (R345). -/
def State.keepLost (s : State) (p : Nat) : State :=
  if !(s.port p).carries then s
  else
    let s := s.toEdge ((s.port p).lastKeepalive + 12288)
    if s.edge < (s.port p).lastKeepalive + 12288 then s else (s.logEv (portEv p 0x6C)).retrain p

/-! ## LANE_OFF and RETRAIN (R324, R339) -/

/-- FJL_CTRL written: RETRAIN starts a retrain; a LANE_OFF that leaves at least 4 lanes changes the width, another is
stored only. -/
def State.writeLaneOff (s : State) (p off : Nat) : State :=
  if (s.port p).laneOff = off then s
  else
    let s := s.modPort p fun q => { q with laneOff := off }
    let w := (s.port p).wanted
    if w ≠ (s.port p).active then s.startWidth p w else s

/-! ## The rows -/

/-- DATA_FLIT (R320): the 256 bytes of a flit as they arrive. -/
def execDataFlit (port : Nat) (raw : List Byte) (s : State) : Answer := .next (s.flit port raw)
/-- IDLE_FLIT (R325): a flit that carries nothing but ACK and credits. -/
def execIdleFlit (port : Nat) (h : FlitHdr) (s : State) : Answer :=
  .next (if (s.port port).carries then s.flitHdr port h else s)
/-- NAK (R320). -/
def execNak (port : Nat) (h : FlitHdr) (seq : Nat) (s : State) : Answer :=
  .next (if (s.port port).carries then (s.flitHdr port h).nakIn port seq else s)
/-- NAK_REPEAT (R320): 64 flit times after the last NAK. -/
def execNakRepeat (port : Nat) (s : State) : Answer :=
  .next (if (s.port port).carries && (s.port port).nakOut then s.sendNak port else s)
/-- REPLAY_TIMEOUT (R320): no ACK advance for 512 ns. -/
def execReplayTimeout (port : Nat) (s : State) : Answer :=
  .next (if (s.port port).carries then s.resendAll port else s)
/-- KEEPALIVE (R344). -/
def execKeepalive (port : Nat) (h : FlitHdr) (k : KeepFlit) (s : State) : Answer :=
  .next (if (s.port port).carries then (s.flitHdr port h).keepIn port k else s)
/-- KEEPALIVE_SEND (R343): the clock runs to the next beat whose low 12 bits are 0x800. -/
def execKeepaliveSend (s : State) : Answer := .next s.keepSend
/-- KEEPALIVE_LOST (R345): the clock runs to the limit. -/
def execKeepaliveLost (port : Nat) (s : State) : Answer := .next (s.keepLost port)
/-- IDENT (R339). -/
def execIdent (port : Nat) (i : IdentFlit) (s : State) : Answer := .next (s.identIn port i)
/-- ECHO (R340): one of the far end to return, with its cycle count, or this end's own with its round trip; and the cycles that the
end which returns it holds it. -/
def execEcho (port : Nat) (own : Bool) (cycles hold : Nat) (s : State) : Answer := .next (s.echoIn port own cycles hold)
/-- WIDTH (R323). -/
def execWidth (port : Nat) (h : FlitHdr) (mask : Nat) (s : State) : Answer :=
  .next (if (s.port port).carries then (s.flitHdr port h).widthIn port mask else s)
/-- FAR_END_DETECT (R339). -/
def execFarEndDetect (port : Nat) (s : State) : Answer :=
  .next (if (s.port port).st = .down ∧ (s.port port).allowed ≠ 0 then s.train port else s)
/-- DETECT_DONE (R339): the lanes that detected the far end. -/
def execDetectDone (port lanes : Nat) (s : State) : Answer := .next (s.stepDone port .detect .equalise lanes 0x60)
/-- EQUALISE_DONE (R339): the lanes that adapted. -/
def execEqualiseDone (port lanes : Nat) (s : State) : Answer := .next (s.stepDone port .equalise .lock lanes 0x60)
/-- LOCK_DONE (R339): the lanes that locked with at most 10 errors. -/
def execLockDone (port lanes : Nat) (s : State) : Answer := .next (s.stepDone port .lock .identify lanes 0x65)
/-- IDENTIFY_DONE (R339): the lanes that both ends kept, and after a retrain the SEQ that the far end expects (R321). -/
def execIdentifyDone (port lanes expect : Nat) (s : State) : Answer := .next (s.identified port lanes expect)
/-- TRAINING_STEP_TIMEOUT (R339): the clock runs to the limit. -/
def execTrainingStepTimeout (port : Nat) (s : State) : Answer := .next (s.stepLate port)
/-- TRAINING_RETRY (R339): the clock runs to the retry. -/
def execTrainingRetry (port : Nat) (s : State) : Answer := .next (s.trainRetry port)
/-- LOSS_OF_LOCK (R506): the lanes that keep lock. -/
def execLossOfLock (port lanes : Nat) (s : State) : Answer := .next (s.lockLost port lanes)

end Sys2Proof.Machine
end

