-- ==== Sys2Proof/Machine/Integrity.lean ====
section
/-!
DEFINITION. Row reconstruction, patrol, targeted tests and their outcomes, sparing and retirement, and periodic logic
BIST (R286 to R309).
-/

namespace Sys2Proof.Machine

open Sys2Proof

/-! ## Spare rows, spare banks, retiring slices (R302) -/

/-- Every object with an extent in a slice that retires is moved to other slices as its allocation allows (R266, R302). -/
def State.retireMoves (s : State) (r : Nat) : State :=
  if (s.region r).slice ≠ 1 then s
  else
    let os := s.tongs.objs.filter fun o =>
      o.cur.tier == 0 && o.st == .resident && o.phase == .none && o.cur.wheres.any fun w => w / 8192 == r
    os.foldl (fun s o =>
      match s.ask false { client := o.owner, tier := 0, press := false, named := false, n := o.extents } with
      | (.fail _, _) => s
      | _ => s.goAuto o.idx .retire false) s

/-- The moves of every slice that retires go on. -/
def State.retireAll (s : State) : State := (List.range 16).foldl (fun s r => s.retireMoves r) s

/-- A slice without a spare bank enters RETIRING: code 0x2A (R302). -/
def State.retireSlice (s : State) (r : Nat) : State :=
  if (s.region r).slice ≠ 0 then s
  else (((s.modRegion r fun g => { g with slice := 1 }).logEv (sliceEv r 0x2A)).addRisk 7).retireMoves r

/-- A physical bank needs a spare row and has none: it is copied to a spare bank of the controller's choice, or the slice
retires (R302). -/
def State.spareBank (s : State) (r pb : Nat) : State :=
  let g := s.region r
  let free := g.spareBanks.filter fun b => b != pb && !g.sparing.any fun x => x.spare == b
  if g.sparing.any fun x => x.bank == pb then s
  else match free with
    | [] => s.retireSlice r
    | b :: bs =>
      let (k, s) := s.fresh
      s.modRegion r fun g => { g with sparing := g.sparing ++ [{ bank := pb, spare := (b :: bs).getD (Config.pick k % (bs.length + 1)) b }] }

/-! ## Granules that wait for a segment (R290 to R292) -/

/-- The granules, by core and tag, that wait for a segment. -/
def State.waiters (s : State) (k : Nat × Nat × Nat × Nat) : List (Nat × Nat) :=
  (List.range 192).flatMap fun n => (List.range 64).filterMap fun t =>
    if (vget (s.core n).sm.tags t).g.any fun p => p.2.recon == some k then some (n, t) else none

/-- A granule's segment has been rebuilt: a fetch is delivered, a partial write completes and is accepted (R290, R291);
a response for a stale epoch is dropped. -/
def State.servedBy (s : State) (n tag : Nat) : State :=
  let t := vget (s.core n).sm.tags tag
  match t.g with
  | none => s
  | some (e, g) =>
    if g.kind = .store ∨ g.kind = .scatter then s.storeDone n tag
    else if e ≠ t.epoch then (s.dropStale n tag).settle n
    else s.arrive n tag

/-- A granule's segment cannot be rebuilt: its read faults 0x59 or loses its race; one of a stopped command is dropped
(R282, R293). -/
def State.rowFault (s : State) (n tag : Nat) : State :=
  let t := vget (s.core n).sm.tags tag
  match t.g with
  | none => s
  | some (e, g) =>
    if e ≠ t.epoch then s.dropStale n tag
    else ((s.granFault n t.col g 0x59 g.obj).modSm n fun m => m.freeTag tag).settle n

/-- The segments that copies of the Tongs and of the Lid wait for. -/
def State.copyWaits (s : State) : List (Nat × Nat × Nat × Nat) :=
  s.tongs.moves.filterMap (·.recon) ++ (s.cmd.cmds.flatMap fun c => c.objs.filterMap (·.recon))
    ++ s.lid.secure.toList.filterMap (·.recon) ++ (s.lid.flash.toList ++ s.lid.store.toList).filterMap (·.recon)

/-- Copies of the Tongs and of the Lid wait for a segment no more. -/
def State.copiesGo (s : State) (k : Nat × Nat × Nat × Nat) : State :=
  let slow := fun (x : SlowCopy) => if x.recon = some k then { x with recon := none } else x
  let s := s.modLid fun l =>
    { l with
      secure := l.secure.map fun x => if x.recon = some k then { x with recon := none } else x
      flash := l.flash.map slow
      store := l.store.map slow }
  let s := s.modTongs fun t => { t with moves := t.moves.map fun m => if m.recon = some k then { m with recon := none } else m }
  s.modCmdU fun u => { u with cmds := u.cmds.map fun c =>
    { c with objs := c.objs.map fun x => if x.recon = some k then { x with recon := none } else x } }

/-- Reconstructions of a slice that waited for an entry claim one: those that a granule or a copy waits for, then those of the
patrol (R292). -/
def State.claimWaiting (s : State) (r : Nat) : State :=
  let ks := (List.range 192).flatMap fun n => (s.core n).sm.tags.toList.filterMap fun t => t.g.bind fun p => p.2.recon
  let s := ((ks ++ s.copyWaits).filter fun k => k.1 == r).foldl (fun s k => s.claimRebuild k) s
  let s := (s.region r).patrolWait.foldl (fun s x => s.claimRebuild (r, x)) s
  s.modRegion r fun g => { g with
    patrolWait := g.patrolWait.filter fun x => !g.rebuild.any fun e => e.bank == x.1 && e.row == x.2.1 && e.seg == x.2.2 }

/-! ## Reconstruction (R291, R293, R295) -/

/-- A version has an extent that lies in a row of a slice: an extent takes two rows of every bank (Table 10.3). -/
def Version.inRow (v : Version) (r row : Nat) : Bool := v.tier == 0 && v.wheres.contains (8192 * r + row / 2)

/-- A command holds a staged extent in a row that is unrecoverable (R293): its attempt aborts with code 0x22, or, once its commit has
begun, its outputs there become LOST as they flip (DEDUCED, assumption 57). -/
def State.stagedLost (r row : Nat) (s : State) (c : Cmd) : State :=
  if c.stoppable then (s.voteNeg c.acceptNo false 0x22 0).stopAttempt c.acceptNo 0x22 0 0 s.pkgIdField
  else if [.committing, .prepared, .inDoubt].contains c.stage then
    s.modCmd c.acceptNo fun c => { c with objs := c.objs.map fun u => if u.staged.any fun v => v.inRow r row then { u with lost := true } else u }
  else s

/-- What a row held is lost (R293): staged extents, targets of moves, extents that a secure holds (Table 13.6), the current version
of an object. -/
def State.rowGone (s : State) (r row : Nat) : State :=
  let held := s.cmd.cmds.filter fun c => c.objs.any fun u => u.staged.any fun v => v.inRow r row
  let s := held.foldl (State.stagedLost r row) s
  let moves := s.tongs.moves.filter fun m => m.tgt.inRow r row
  let s := moves.foldl (fun s m => (s.giveUpMove m.idx 0x22).unlocked m.idx) s
  let s := s.dropImages fun i => i.holdsIn fun v => v.inRow r row
  match s.tongs.objs.find? fun o => o.cur.inRow r row with
  | some o => s.makeLost o.idx
  | none => s

/-- A physical row is unrecoverable (R293): code 0x22, and the outcome of what holds it. -/
def State.rowLost (s : State) (k : Nat × Nat × Nat × Nat) : State :=
  let s := (s.rgnCnt k.1 4 1).logEv { sliceEv k.1 0x22 with addr := .stockpot k.1 k.2.1 k.2.2.1 k.2.2.2 0 }
  let s := match (s.region k.1).logical k.2.1 k.2.2.1 with
    | some (_, row) => s.rowGone k.1 row
    | none => s
  let s := (s.waiters k).foldl (fun (s : State) (w : Nat × Nat) => s.rowFault w.1 w.2) s
  (s.copiesGo k).retireAll

/-- A second bad segment in a row that holds metadata of an entry (R295). -/
def State.metaLost (s : State) (k : Nat × Nat × Nat × Nat) (idx : Nat) (both : Bool) : State :=
  let a := LogAddr.stockpot k.1 k.2.1 k.2.2.1 k.2.2.2 0
  let s := (s.rgnCnt k.1 4 1).logEv { sliceEv k.1 0x22 with addr := a }
  let s := (s.icnt 23 1).logEv { sliceEv k.1 0x2C with addr := a }
  if both then s.makeLost idx else s

/-- The source of a record about a segment: the stream that a granule of it holds, if one does (Table 17.9), else the slice. -/
def State.segSource (s : State) (k : Nat × Nat × Nat × Nat) (code : Nat) : LogEv :=
  match s.waiters k with
  | (n, tag) :: _ => { coreEv n (if (vget (s.core n).sm.tags tag).col then 4 else 3) code with acceptNo := (s.core n).cmd.getD 0 }
  | [] => sliceEv k.1 code

/-- A segment has been rebuilt, with the cycles that demand accesses held its reads back: counted and logged (R291). -/
def State.segRebuilt (s : State) (k : Nat × Nat × Nat × Nat) (held : Nat) : State :=
  let cyc := 384 + min 192 held
  (((s.rgnCnt k.1 2 1).rgnCnt k.1 3 cyc).logEv
    { s.segSource k 0x21 with addr := .stockpot k.1 k.2.1 k.2.2.1 k.2.2.2 0, extra := cyc }).addRisk 1

/-- A reconstruction ends (R291): the row's entry holds the segment, who waits is served, and the row is due for a spare
row and its test (R299, R302). -/
def State.reconstructed (s : State) (k : Nat × Nat × Nat × Nat) (f : RowFound) : State :=
  match s.rebuildOf k with
  | none => s
  | some e =>
    if e.done then s
    else
      let bytes := match f with
        | .rebuilt _ => s.xorSegment k
        | _ => []
      let done := fun (x : Rebuild) => { x with done := true, bytes := bytes }
      let s := s.modRegion k.1 fun g =>
        { g with rebuild := modFirst (fun x => x.bank == k.2.1 && x.row == k.2.2.1 && x.seg == k.2.2.2) done g.rebuild }
      let s : State := match f with
        | .rebuilt held =>
          let s := s.segRebuilt k held
          (s.waiters k).foldl (fun (s : State) (w : Nat × Nat) => s.servedBy w.1 w.2) (s.copiesGo k)
        | .second => s.rowLost k
        | .metadata idx both => s.metaLost k idx both
      let s := if s.dieHeld (sliceDie k.1) then s.icnt 25 1 else s
      if (s.region k.1).spareLeft k.2.1 = 0 then s.spareBank k.1 k.2.1 else s

/-- The tests of physical rows begin, and they are recorded in the flash (R299, R305). -/
def State.testRow (r bank : Nat) (s : State) (row : Nat) : State :=
  (s.modInteg fun i =>
    { i with flashRows := if i.flashRows.contains (r, bank, row) then i.flashRows else i.flashRows ++ [(r, bank, row)] }).startTest
      (.row r bank row)

/-- A physical row has been copied to a spare row of its bank and remapped: its entries are freed, it is recorded in the flash and
its own test begins (R292, R299, R305). A row that served as nothing but a spare row needs no other. -/
def State.rowCopied (s : State) (r bank row : Nat) : State :=
  let g := s.region r
  let due := g.rebuild.any fun e => e.bank == bank && e.row == row && e.done
  let used := g.rowOf bank row
  if !due ∨ (used.isSome ∧ g.spareLeft bank = 0) ∨ s.dieHeld (sliceDie r) = true then s
  else
    let s := match used with
      | some x => s.useSpare r bank x
      | none => s
    let s := s.modRegion r fun g => { g with rebuild := g.rebuild.filter fun e => !(e.bank == bank && e.row == row) }
    (State.testRow r bank s row).claimWaiting r

/-- A row of a bank copy that had to be reconstructed, or could not be read (R293, R302). -/
def State.copiedRow (r bank : Nat) (s : State) (x : Nat × Nat × RowFound) : State :=
  let k := (r, bank, x.1, x.2.1)
  match x.2.2 with
  | .rebuilt held => s.segRebuilt k held
  | .second => s.rowLost k
  | .metadata idx both => s.metaLost k idx both

/-- A bank has been copied to a spare bank (R302): the rows of the old bank that were due for a test receive it. `found` lists
physical rows of it that had to be reconstructed, with the segment and what the reconstruction found. -/
def State.bankSpared (s : State) (r : Nat) (found : List (Nat × Nat × RowFound)) : State :=
  match (s.region r).sparing with
  | [] => s
  | x :: rest =>
    let s := found.foldl (State.copiedRow r x.bank) s
    let g := s.region r
    let bank := ((g.bankMap.find? fun y => y.2 == x.bank).map (·.1)).getD x.bank
    let due := ((g.rebuild.filter fun e => e.bank == x.bank && e.done).map (·.row)).eraseDups
    let s := s.modRegion r fun g =>
      { g with
        sparing := rest, spareBanks := g.spareBanks.filter (· != x.spare), bankMap := alSet g.bankMap bank x.spare
        rebuild := g.rebuild.filter fun e => e.bank != x.bank }
    let s := (s.rgnCnt r 10 1).logEv { sliceEv r 0x28 with addr := .stockpot r x.bank 0 0 0 }
    (due.foldl (State.testRow r x.bank) s).claimWaiting r

/-- The last extent has left a RETIRING slice (R302). -/
def State.sliceRetired (s : State) (r : Nat) : State :=
  if (s.region r).slice = 1 ∧ (s.region r).used = [] then s.modRegion r fun g => { g with slice := 2 } else s

/-- The patrol reads the next physical row, with rereads that pass, and a segment with a word that fails parity twice: it starts a
reconstruction, or waits for an entry (R286, R292, R294). An error in a row under test, or in a retired row, is counted
only (R304; DEDUCED, assumption 58). -/
def State.patrolRead (s : State) (r rereads : Nat) (bad : Option Nat) : State :=
  if 16 ≤ r ∨ (s.region r).inReset ∨ [.reset, .bringup, .unreachable].contains (s.die (sliceDie r)).st then s
  else
    let g := s.region r
    let (bank, row) := (g.patrol / bankRows, g.patrol % bankRows)
    let s := ((s.modRegion r fun g => { g with patrol := (g.patrol + 1) % physicalRows }).rgnCnt r 7 1).rgnCnt r 0 rereads
    let s := iter State.riskReread rereads s
    match bad with
    | none => s
    | some seg =>
      let s := (s.rgnCnt r 0 1).rgnCnt r 1 1
      if g.testRows.contains (bank, row) ∨ g.retiredRows.contains (bank, row) then s
      else if (s.rebuildOf (r, bank, row, seg)).isNone ∧ 8 ≤ g.rebuild.length then
        s.modRegion r fun g => { g with patrolWait := g.patrolWait ++ [(bank, row, seg)] }
      else s.claimRebuild (r, bank, row, seg)

/-! ## Outcomes of a test (R300, R301, Table 10.5) -/

/-- A tested structure returns to service, or is lasting. -/
def State.testOutcome (s : State) (l : TestLoc) (lasting : Bool) : State :=
  let k := if lasting then 1 else 0
  match l with
  | .row r bank row =>
    let s := s.modInteg fun i => { i with flashRows := i.flashRows.filter fun x => x != (r, bank, row) }
    let s := s.rgnCnt r (8 + k) 1
    let s := s.modRegion r fun g => { g with testRows := g.testRows.filter fun x => x != (bank, row) }
    if lasting then
      (s.modRegion r fun g => { g with retiredRows := g.retiredRows ++ [(bank, row)] }).logEv
        { TestLoc.ev l 0x27 with sub := 0, extra := 0 }
    else s
  | .farPage p =>
    let s := s.modInteg fun i => { i with farWithheld := i.farWithheld.filter fun x => x.1 != p }
    if lasting then
      ((s.modInteg fun i => { i with farRetired := i.farRetired ++ [p] }).icnt 13 1).logEv { TestLoc.ev l 0x27 with sub := 0, extra := 0 }
    else s
  | .skilletBank c b =>
    let s := s.icnt (16 + k) 1
    if !lasting then s
    else if (s.integ.skilletSpares.filter fun x => x.1 == c).length < 2 then
      ((s.modInteg fun i => { i with skilletSpares := i.skilletSpares ++ [(c, b)] }).icnt 18 1).logEv
        { TestLoc.ev l 0x28 with sub := 0, extra := 0 }
    else s.retireCore c
  | .coreStore c _ => if lasting then s.retireCore c else s
  | .coreLogic c =>
    let s := s.icnt (19 + k) 1
    if lasting then s.retireCore c else s
  | .d2dHalf lk h =>
    let s := s.icnt (8 + k) 1
    if lasting then s.dropHalf lk h else s.modLink lk fun x => { x with testing := vset x.testing h false }
  | .lane p n => (s.icnt (21 + k) 1).laneTested p n lasting

/-- The outcome of a test is transient, or lasting for an error or for a third pass (R300, R301). -/
def State.settleTest (s : State) (l : TestLoc) (pass : Bool) : State :=
  let (third, s) : Bool × State := if pass then s.passed l else (false, s)
  let lasting := !pass || third
  let s := s.logEv (l.ev (if lasting then 0x26 else 0x25))
  (s.addRisk (if lasting then 7 else 6)).testOutcome l lasting

/-- A targeted test ends with a number of errors (R300, R301). -/
def State.testDone (s : State) (l : TestLoc) (errors : Nat) : State :=
  match s.integ.tests.find? fun t => t.loc == l with
  | none => s
  | some t =>
    if !t.running then s
    else
      let s := s.modInteg fun i => { i with tests := i.tests.filter fun t => t.loc != l }
      let s : State := match l.core with
        | some n => if (s.core n).st = CoreState.idle then s.modCore n fun c => c.afterReset s.edge else s
        | none => s
      let s := s.settleTest l (match l with
        | .lane _ _ => decide (errors < 172)
        | _ => errors == 0)
      if s.tongs.waits = [] then s else s.retryWaits

/-- A test that waits starts once its domain and its core allow it (R304). -/
def State.testStart (s : State) (l : TestLoc) : State :=
  if s.testFree l then
    s.modInteg fun i =>
      { i with tests := modFirst (fun t => t.loc == l) (fun t => { t with running := true, deferred := false }) i.tests }
  else s

/-! ## Periodic logic BIST (R306 to R309) -/

/-- A rail lies within ±3% of its target. -/
def State.railGood (s : State) (target : Nat) (i : Nat) : Bool :=
  let v := (vget s.power.rails i).volt
  decide (97 * target ≤ 100 * v) && decide (100 * v ≤ 103 * target)

/-- The target of a rail in mV (Table 14.1). -/
def State.railTarget (s : State) (i : Nat) : Nat :=
  if i < 4 then vget s.power.fusedMv i else [750, 1050, 750, 900, 500, 900, 1800].getD (i - 4) 0

/-- The present beat lies inside the host window, and the core is named in it (R306, R308). -/
def State.inWindow (s : State) (n : Nat) : Bool :=
  let i := s.integ
  i.bistLen != 0 && decide (i.bistWin ≤ s.now) && decide (s.now < i.bistWin + i.bistLen)
    && bitOf (vget i.bistResv (n / 64)).toNat (n % 64)

/-- The core has been IDLE for 8,192 beats (R306). -/
def State.longIdle (s : State) (n : Nat) : Bool :=
  (s.core n).st == .idle && decide ((s.core n).idleSince + 8192 ≤ s.edge)

/-- A group command accepted for the core starts too soon (R306). -/
def State.groupNear (s : State) (n : Nat) : Bool :=
  let lead := if s.integ.bistClock then 5867 else 4160
  s.cmd.cmds.any fun c => c.stage != .resolved && (s.part c.part).hasCore n && c.group.any fun g =>
    decide (s.now ≤ g.base) && decide (g.base ≤ s.now + lead)

/-- The voltage allows a slice (R306). -/
def State.bistPower (s : State) (n : Nat) : Bool :=
  let d := coreDie n
  s.railGood (s.railTarget d) d && s.railGood (s.railTarget 4) 4

/-- A slice may start on a core, voltage, clock and the limits of R308 apart. -/
def State.bistIdle (s : State) (n : Nat) : Bool :=
  s.integ.bistEnable && s.inService n && (s.core n).st == .idle && !(s.core n).inReset && (s.longIdle n || s.inWindow n)
    && !(s.groupNear n) && !(s.integ.busyCores.contains n) && !s.coreTested n

/-- Edge of a core's last completed slice. -/
def IntegritySt.lastOf (i : IntegritySt) (n : Nat) : Nat := alGet i.lastSlice n 0

/-- No other core that could run a slice has waited longer (R308). -/
def State.bistTurn (s : State) (n : Nat) : Bool :=
  s.inWindow n || (List.range 192).all fun m =>
    decide (s.integ.lastOf n ≤ s.integ.lastOf m) || !(s.bistIdle m && s.bistPower m && s.testRoom m)

/-- A slice starts (R306, R308), or is skipped for voltage or clock, once in an idle period. `clock`: the core clock is locked
at the clock that TEST_CLOCK selects. A targeted core test that could run comes first. -/
def State.sliceStart (s : State) (n : Nat) (clock : Bool) : State :=
  if 192 ≤ n ∨ !s.bistIdle n ∨ s.coreTestDue = true then s
  else if !(s.bistPower n && clock && s.beat.lock != .unlocked) then
    if s.integ.skipped.contains n then s
    else (s.modInteg fun i => { i with skipped := i.skipped ++ [n] }).rgnCnt (coreSlice n) 12 1
  else if s.testRoom n ∧ s.bistTurn n = true then
    s.modInteg fun i => { i with slices := i.slices ++ [(n, alGet i.nextSlice n 0, false)] }
  else s

/-- A slice is complete: the core is reset and cleared, and the next slice follows (R306, R307). -/
def State.sliceOver (s : State) (n k : Nat) : State :=
  let s := s.modInteg fun i =>
    { i with
      slices := i.slices.filter fun x => x.1 != n
      nextSlice := alSet i.nextSlice n ((k + 1) % 64)
      lastSlice := alSet i.lastSlice n s.edge }
  (s.rgnCnt (coreSlice n) 11 1).modCore n fun c => c.afterReset c.idleSince

/-- A core is lasting by its BIST: retired, code 0x29 (R309). -/
def State.bistRetire (s : State) (n : Nat) : State :=
  ((s.modInteg fun i => { i with slices := i.slices.filter fun x => x.1 != n }).addRisk 7).retireCore n

/-- A slice ends: its signature matches or not (R309). -/
def State.sliceEnd (s : State) (n : Nat) (ok : Bool) : State :=
  match s.integ.slices.find? fun x => x.1 == n with
  | none => s
  | some (_, k, second) =>
    let s := if ok then s else s.rgnCnt (coreSlice n) 14 1
    if !second then
      if ok then s.sliceOver n k
      else
        (s.modInteg fun i => { i with slices := modFirst (fun x => x.1 == n) (fun _ => (n, k, true)) i.slices }).logEv
          { code := 0x2D, die := coreDie n, region := coreRegion n, core := n }
    else if ok then
      let (third, s) := (s.sliceOver n k).passed (.coreLogic n)
      if third then s.bistRetire n else s
    else s.bistRetire n

/-! ## The rows -/

/-- ROW_SPARE_COPY_DONE (R299). -/
def execRowSpareCopyDone (slice bank row : Nat) (s : State) : Answer := .next (s.rowCopied slice bank row)
/-- PATROL_READ (R294). -/
def execPatrolRead (slice rereads : Nat) (bad : Option Nat) (s : State) : Answer := .next (s.patrolRead slice rereads bad)
/-- ECC_REPORT_POLL (R296): the corrections that the devices report. -/
def execEccReportPoll (n : Nat) (s : State) : Answer := .next (s.icnt 12 n)
/-- TEST_COMPLETE (R301). -/
def execTestComplete (l : TestLoc) (errors : Nat) (s : State) : Answer := .next (s.testDone l errors)
/-- DEFERRED_TEST_START (R304). -/
def execDeferredTestStart (l : TestLoc) (s : State) : Answer := .next (s.testStart l)
/-- BANK_SPARE_COPY_DONE (R302). -/
def execBankSpareCopyDone (slice : Nat) (found : List (Nat × Nat × RowFound)) (s : State) : Answer :=
  .next (s.bankSpared slice found)
/-- SLICE_RETIRED (R302). -/
def execSliceRetired (slice : Nat) (s : State) : Answer := .next (s.sliceRetired slice)
/-- LBIST_SLICE_START (R306). -/
def execLbistSliceStart (core : Nat) (clock : Bool) (s : State) : Answer := .next (s.sliceStart core clock)
/-- LBIST_SLICE_COMPLETE (R309): whether the signature matches. -/
def execLbistSliceComplete (core : Nat) (ok : Bool) (s : State) : Answer := .next (s.sliceEnd core ok)

end Sys2Proof.Machine
end

