-- ==== Sys2Proof/Machine/ObjectRows.lean ====
section
/-!
DEFINITION. Object requests and the events of the Tongs: fills, copies, flips, releases, invalidations and allocations
that time out (R252 to R270, R279, R362).
-/

namespace Sys2Proof.Machine

open Sys2Proof

/-! ## Requests (R252) -/

/-- OP of an OBJECT message. -/
def objOp (m : List Byte) : Nat := leAt m (64 + 8 * leAt m 6 2) 1

/-- A COMMAND message of the host for the command unit is received, when it is the one that a row names. -/
def State.command (s : State) (v : Via) (mine : Bool) (act : State → State) : State :=
  if !mine then s
  else
    let (ok, s) := s.receive v 0x20
    if ok then act s else s

/-- An OBJECT message with an opcode; one that Table 9.6 does not list counts as any. -/
def State.objectRow (s : State) (v : Via) (m : List Byte) (op : Nat) : State :=
  let o := objOp m
  s.command v (leAt m 0 1 == 3 && (o == op || o == 0 || decide (0x0A < o))) fun s => s.message v.tag m

/-- CREATE's fill ends (R255, step 3); it is held, or fails, where a slice of it is out of service (R28). -/
def State.fillDone (s : State) (a : Nat) : State :=
  match s.getCmd a with
  | none => s
  | some c => match s.createdBy c with
    | none => s
    | some o =>
      if o.cur.wheres = [] then s
      else match s.copyAccess o.cur with
        | 0 => (s.finishCreate a).goObjects
        | 1 => s
        | _ => s.failFill c o 0x14

/-! ## Copies of moves and of staging (R28, R258, R286, R291, R296, R362) -/

/-- Rereads that passed, counted for the store that a copy reads at object bytes (R286, Table 13.8). -/
def State.copyRereads (v : Version) (s : State) (off : Nat) : State :=
  (if v.tier = 0 then s.rgnCnt (v.slice off) 0 1 else if v.tier = 1 then s.icnt 10 1 else s).riskReread

/-- A copy waits for a reconstruction. -/
def State.copyHolds (s : State) (w : HostOwner) (k : Nat × Nat × Nat × Nat) : State :=
  match w with
  | .move idx => s.modTongs fun t => { t with moves := modFirst (fun m => m.idx == idx) (fun m => { m with recon := some k }) t.moves }
  | .stage a h => s.modCmd a fun c => { c with objs := modFirst (fun u => u.handle == h) (fun u => { u with recon := some k }) c.objs }
  | _ => s

/-- A copy from `src` to `tgt`, versions of entry `idx`, meets its tiers: it is held or fails with the state of a die, waits for a
reconstruction, or finds the object LOST; `fin` acts when it goes through. -/
def State.copyMeets (s : State) (w : HostOwner) (idx : Nat) (src tgt : Version) (size : Nat) (rereads : List Nat) (o : GranOutcome)
    (fail : State → State) (fin : State → State) : State :=
  match max (s.copyAccess src) (s.copyAccess tgt) with
  | 0 =>
    let s := rereads.foldl (State.copyRereads src) s
    match o with
    | .ok _ => fin s
    | .replay => s
    | .recon _ off =>
      if src.tier = 0 ∧ off < size then
        let k := s.segAt src off
        ((s.rgnCnt k.1 0 1).rgnCnt k.1 1 1 |>.claimRebuild k).copyHolds w k
      else s
    | .farBad sub rank off => if src.tier = 1 ∧ off < size then (s.farFails idx src sub rank off 0).makeLost idx else s
  | 1 => s
  | _ => fail s

/-- The copy of a move is done: the entry flips, and the lock is FLIP (R258, steps 4 and 5). -/
def State.flipMove (s : State) (m : Move) (o : Obj) : State :=
  let rel := s.tongs.nextRelease
  let s := ((s.endMove m.idx).tngCnt 13 o.size).mergeDrop m.idx none
  let s := s.modTongs fun t =>
    { t with flips := t.flips ++ [{ idx := m.idx, kind := m.kind, acceptNo := m.acceptNo, old := o.cur, lastUse := o.lastUse, rel := rel }] }
  (((s.flip o m.tgt o.version).modObj m.idx fun o => { o with phase := .flip }).retireAll).retryWaits

/-- The end of the copy of a move: nothing of it is outstanding at the host (R258, R278). `rereads` are object bytes whose reread
passed. -/
def State.copyDone (s : State) (idx : Nat) (rereads : List Nat) (r : GranOutcome) : State :=
  match s.tongs.moves.find? fun m => m.idx == idx, s.tongs.byIdx idx with
  | some m, some o =>
    if m.waiting ∨ o.phase ≠ .copy ∨ m.recon.isSome ∨ s.hostIdle (.move idx) = false then s
    else s.copyMeets (.move idx) idx o.cur m.tgt o.size rereads r
      (fun s => ((s.giveUpMove idx 0x14).unlocked idx).retryWaits) fun s => s.flipMove m o
  | _, _ => s

/-- All 16 regions have acknowledged a flip (R258, Table 9.7): the lock is NONE, the request completes, a queued evict is
evaluated, and commits that waited go on. -/
def State.flipDone (s : State) (idx : Nat) : State :=
  match s.tongs.flips.find? fun x => x.idx == idx with
  | none => s
  | some f =>
    let s := s.modTongs fun t => { t with flips := t.flips.filter fun x => x.idx != idx }
    let s := (s.modObj idx fun o => { o with phase := .none }).tngCnt 6 1
    let tier := ((s.tongs.byIdx idx).map (·.cur.tier)).getD 0
    let s := if f.kind = .move ∨ f.kind = .evict then s.doneObj f.acceptNo tier [] else s
    (((s.queuedEvict idx).continueCommits).retireAll).retryWaits

/-! ## Releases, invalidations, allocations (R259, R266, R270) -/

/-- Extents are released once nothing translated to them is outstanding (R259). -/
def State.releaseDone (s : State) (id : Nat) : State :=
  match s.tongs.releases.find? fun r => r.id == id with
  | none => s
  | some r =>
    if s.releaseBusy r then s
    else
      let s := s.modTongs fun t => { t with releases := t.releases.filter fun x => x.id != id }
      let s := (s.giveBack r.tier r.press r.wheres).uncharge r.client r.tier r.units
      (s.retryWaits).retireAll

/-- The invalidations of a GRANT or REVOKE are acknowledged (R270). -/
def State.invalDone (s : State) (a : Nat) : State :=
  if s.tongs.invals.contains a then
    let s := s.modTongs fun t => { t with invals := t.invals.filter fun b => b != a }
    (s.doneObj a 0 []).goObjects
  else s

/-- An allocation that waits reaches EVICT_WAIT (R266): it proceeds if the units are there by then. `auto` names the entry of a
move that no request asked for. -/
def State.allocLate (s : State) (a : Nat) (auto : Option Nat) : State :=
  let key := auto.map fun i => (i, MoveKind.auto)
  match s.tongs.waits.find? fun w => w.is a key with
  | none => s
  | some w =>
    let s := s.toEdge w.until_
    if s.edge < w.until_ then s
    else
      let s := s.retryWait w
      match s.tongs.waits.find? fun w => w.is a key with
      | none => s.goObjects
      | some w => s.timeoutWait w

/-! ## Staging (R362) -/

/-- The copies of a command's OUT_COPY objects are done (R362), or that of the object with handle `h` meets an outcome. -/
def State.stagedCopied (s : State) (a h : Nat) (rereads : List Nat) (r : GranOutcome) : State :=
  match s.getCmd a with
  | none => s
  | some c =>
    let open_ := c.objs.filter fun u => !u.copied
    let out := fun (u : ObjUse) => u.recon.isSome || !s.hostIdle (.stage a u.handle)
    if c.stage ≠ .staging ∨ (c.objs.all fun u => u.role == 0 || u.staged.isSome) = false ∨ open_.any out = true then s
    else match open_.find? fun u => (s.tongs.byHandle u.handle).any fun o => o.st == .lost with
      | some u => s.copyFails a u.handle 0x59 0
      | none =>
        let done := fun (s : State) =>
          (s.modCmd a fun c => { c with objs := c.objs.map fun u => { u with copied := true } }).goStage a false
        match (open_.find? fun u => u.handle == h).bind fun u => u.staged, s.tongs.byHandle h with
        | some v, some o =>
          s.copyMeets (.stage a h) o.idx o.cur v o.size rereads r (fun s => s.copyFails a h 0x14 0) fun s =>
            match open_.find? fun u => u.staged.any fun v => s.copyAccess v ≠ 0 with
            | some u => if u.staged.any fun v => s.copyAccess v == 2 then s.copyFails a u.handle 0x14 0 else s
            | none => done s
        | _, _ => s

/-! ## The rows -/

/-- CREATE (R255): a COMMAND message as received on the host port. -/
def execCreate (v : Via) (m : List Byte) (s : State) : Answer := .next (s.objectRow v m 0x01)
/-- FREE (R256). -/
def execFreeObj (v : Via) (m : List Byte) (s : State) : Answer := .next (s.objectRow v m 0x02)
/-- MOVE (R258). -/
def execMoveObj (v : Via) (m : List Byte) (s : State) : Answer := .next (s.objectRow v m 0x03)
/-- EVICT (R263). -/
def execEvict (v : Via) (m : List Byte) (s : State) : Answer := .next (s.objectRow v m 0x04)
/-- SETFLAGS (R252). -/
def execSetflags (v : Via) (m : List Byte) (s : State) : Answer := .next (s.objectRow v m 0x05)
/-- GRANT of read access (R270). -/
def execObjGrant (v : Via) (m : List Byte) (s : State) : Answer := .next (s.objectRow v m 0x06)
/-- REVOKE (R270). -/
def execRevoke (v : Via) (m : List Byte) (s : State) : Answer := .next (s.objectRow v m 0x07)
/-- QUERY (R252). -/
def execQuery (v : Via) (m : List Byte) (s : State) : Answer := .next (s.objectRow v m 0x08)
/-- MAP (R252). -/
def execMapObj (v : Via) (m : List Byte) (s : State) : Answer := .next (s.objectRow v m 0x09)
/-- POOL_ADD (R279). -/
def execPoolAdd (v : Via) (m : List Byte) (s : State) : Answer := .next (s.objectRow v m 0x0A)
/-- CREATE_FILL_COMPLETE (R255): the CREATE with acceptance number `a`. -/
def execCreateFillComplete (a : Nat) (s : State) : Answer := .next (s.fillDone a)
/-- MOVE_COPY_DONE (R258): the move of entry `idx`. -/
def execMoveCopyDone (idx : Nat) (rereads : List Nat) (o : GranOutcome) (s : State) : Answer := .next (s.copyDone idx rereads o)
/-- FLIP_COMPLETE (R260). -/
def execFlipComplete (idx : Nat) (s : State) : Answer := .next (s.flipDone idx)
/-- EXTENT_RELEASE (R259): the release with number `id`. -/
def execExtentRelease (id : Nat) (s : State) : Answer := .next (s.releaseDone id)
/-- GRANT_INVAL_COMPLETE (R270). -/
def execGrantInvalComplete (a : Nat) (s : State) : Answer := .next (s.invalDone a)
/-- ALLOCATION_TIMEOUT (R266): the clock runs to EVICT_WAIT. -/
def execAllocationTimeout (a : Nat) (auto : Option Nat) (s : State) : Answer := .next (s.allocLate a auto)
/-- STAGED_COPY_COMPLETE (R362). -/
def execStagedCopyComplete (a h : Nat) (rereads : List Nat) (o : GranOutcome) (s : State) : Answer :=
  .next (s.stagedCopied a h rereads o)

end Sys2Proof.Machine
end

