-- ==== Sys2Proof/Machine/CommandRows.lean ====
section
/-!
DEFINITION. The rows of the command unit: command messages, mirrors, the start of attempts and the loading of cores,
commits, votes and decisions, and the replay of the journal after a reset (R71, R111, R353 to R378).
-/

namespace Sys2Proof.Machine

open Sys2Proof

/-! ## Command messages (R354, R377, R378) -/

/-- KIND of a command message. -/
def msgKind (m : List Byte) : Nat := leAt m 0 1

/-- RUN (R358): a COMMAND message of KIND 1, or of a KIND that Table 12.2 does not list, which is rejected. -/
def execRunCmd (v : Via) (m : List Byte) (s : State) : Answer :=
  .next (s.command v (msgKind m == 1 || msgKind m == 0 || decide (6 < msgKind m)) fun s => s.message v.tag m)
/-- GROUP (R367). -/
def execGroupCmd (v : Via) (m : List Byte) (s : State) : Answer :=
  .next (s.command v (msgKind m == 2) fun s => s.message v.tag m)
/-- PREEMPT (R377). -/
def execPreempt (v : Via) (m : List Byte) (s : State) : Answer :=
  .next (s.command v (msgKind m == 4) fun s => s.plainMessage v.tag m fun s => s.preempt v.tag (msgHdr m))
/-- RESUME (R378). -/
def execResume (v : Via) (m : List Byte) (s : State) : Answer :=
  .next (s.command v (msgKind m == 5) fun s => s.plainMessage v.tag m fun s => s.resume v.tag (msgHdr m))
/-- JOB_END (R378). -/
def execJobEnd (v : Via) (m : List Byte) (s : State) : Answer :=
  .next (s.command v (msgKind m == 6) fun s => s.plainMessage v.tag m fun s => s.jobEnd v.tag (msgHdr m))

/-! ## Mirrors (R358, R374) -/

/-- MIRROR (R358, R374). -/
def execMirror (v : Via) (r : JRec) (s : State) : Answer :=
  let (ok, s) := s.receive v 0x12
  if ok then .next (s.mirrorIn v.src v.tag r) else .next s

/-- MIRROR_ACK (R358): `ok` is false when the partner refused the record. -/
def execMirrorAck (v : Via) (accepted : Bool) (s : State) : Answer :=
  let (ok, s) := s.receive v 0x32
  if ok then .next (s.mirrorAck v.tag accepted) else .next s

/-- MIRROR_RETRY (R358): the clock runs to 65,536 beats after the last send. -/
def execMirrorRetry (tag : Nat) (s : State) : Answer :=
  match s.cmd.mirrors.find? fun m => m.tag == tag with
  | none => .next s
  | some m => .next ((s.toEdge (m.sentEdge + 65536)).mirrorRetry tag)

/-! ## The start of an attempt and the loading of cores (R71, R72, R111, R353) -/

/-- The partition starts its next command when it can, on at least one core, none of them in a core or region reset
(R351, R353, R428). -/
def State.startNext (s : State) (p : Nat) : State :=
  if p < 16 ∧ s.partFree p = true ∧ s.partCores p ≠ [] ∧ ((s.partCores p).all fun n => !(s.core n).inReset) = true then
    match s.nextCmd p with
    | some c => s.startAttempt c
    | none => s
  else s

/-- COMMAND_START (R353). -/
def execCommandStart (part : Nat) (s : State) : Answer := .next (s.startNext part)

/-- The clearing of a core's stores ends and its program load begins (R111). -/
def State.clearDone (s : State) (n : Nat) : State :=
  if ((s.core n).loading.any fun l => l.clearing) = true then (s.modCore n CoreSt.cleared).startLoad n else s

/-- CLEARING_COMPLETE (R111). -/
def execClearingComplete (core : Nat) (s : State) : Answer := .next (s.clearDone core)

/-- The core begins its command: Table 3.2, and RUNNING at the beat of its first fetch, or WAITING_START for a group's
start beat (R55, R71). -/
def State.coreStarts (s : State) (n : Nat) (c : Cmd) : State :=
  let base := match c.group with
    | some g => g.base
    | none => s.now
  let st := if c.group.isSome ∧ s.now < base then CoreState.waitingStart else .running
  (s.modCore n fun k =>
    { k.atStart (msgParams c.message) with st := st, beatBase := base, progress := true }).settle n

/-- The program of a core has been read: every granule of its image is in the Skillet (R71, R72). While the core is under
test, it waits (R308). -/
def State.programDone (s : State) (n : Nat) : State :=
  let k := s.core n
  match k.loading with
  | none => s
  | some l =>
    if k.st ≠ .loading ∨ l.clearing ∨ !l.started ∨ !k.sm.xfers.isEmpty ∨ s.coreTested n then s
    else match s.getCmd l.acceptNo with
      | none => s
      | some c => s.coreStarts n c

/-- PROGRAM_LOADED (R71). -/
def execProgramLoaded (core : Nat) (s : State) : Answer := .next (s.programDone core)

/-! ## Commit, votes, decisions (R365, R370 to R376) -/

/-- LOCAL_COMMIT (R365). -/
def execLocalCommit (a : Nat) (s : State) : Answer := .next (s.localCommit a)

/-- VOTE (R373). -/
def execVote (v : Via) (vote : Vote) (s : State) : Answer :=
  let (ok, s) := s.receive v 0x03
  if ok then .next (s.voteIn v.src vote) else .next s

/-- The clock runs to a beat that the group of a command names. -/
def State.groupClock (s : State) (a : Nat) (f : Cmd → Group → State) : State :=
  match s.getCmd a with
  | none => s
  | some c => match c.group with
    | none => s
    | some g => if c.stage = .resolved then s else f c g

/-- VOTE_TIMEOUT (R373): the clock runs to C + 256. -/
def execVoteTimeout (a : Nat) (s : State) : Answer :=
  .next (s.groupClock a fun _ g =>
    if g.decision.isSome ∨ g.k < g.nrdv then s else (s.toBeat (g.commitBeat + 256)).voteTimeout a)

/-- COMMIT_MIRROR_TIMEOUT (R373): the clock runs to D − 192. -/
def execCommitMirrorTimeout (a : Nat) (s : State) : Answer :=
  .next (s.groupClock a fun _ g => match g.deciding with
    | none => s
    | some (d, _) => (s.toBeat (d.beat - 192)).mirrorTimeout a)

/-- DECISION (R375): with the way it came when it was broadcast. -/
def execDecision (v : Via) (d : Decision) (arr : Option Arrival) (s : State) : Answer :=
  let (ok, s) := s.receive v 0x04
  if ok then .next ((s.relay v.src (.decision d) arr).decisionIn d) else .next s

/-- DECISION_BEAT (R375): the clock runs to D. -/
def execDecisionBeat (a : Nat) (s : State) : Answer :=
  .next (s.groupClock a fun c g => match g.decision with
    | none => s
    | some d => if c.stage = .committing then (s.toBeat d.beat).goCommit a else s)

/-- RERUN_START (R375): the clock runs to the restart beat. -/
def execRerunStart (a : Nat) (s : State) : Answer :=
  .next (s.groupClock a fun c g =>
    if c.stage = .queued ∧ c.attempts ≠ 0 then (s.toBeat (max g.base c.notBefore)).rerunGroup a else s)

/-- IN_DOUBT (R376): the clock runs to D + 256, or to 1,024 beats after an ABORT or FAIL vote. -/
def execInDoubt (a : Nat) (s : State) : Answer :=
  .next (s.groupClock a fun c g =>
    if g.decision.isSome then s
    else if c.stage = .prepared ∧ g.voted = some 1 then (s.toBeat (g.commitBeat + 1280)).doubt a
    else if c.stage = .votedAbort then (s.toEdge (g.voteEdge + 1024)).doubt a
    else s)

/-- IN_DOUBT_QUERY (R376): the clock runs to 4,096 beats after the last query. -/
def execInDoubtQuery (a : Nat) (s : State) : Answer :=
  .next (s.groupClock a fun c g =>
    if c.stage = .inDoubt then (s.toEdge (g.lastQuery + 4096)).queryOut a else s)

/-! ## Replay (R361) -/

/-- Records of a command after its last ABORT: those of the attempt that was under way. -/
def attemptRecs : List JRec → List JRec → List JRec
  | [], acc => acc
  | r :: rs, acc => match r.payload with
    | .abort _ => attemptRecs rs []
    | _ => attemptRecs rs (acc ++ [r])

/-- Attempts that ended without commit, by a command's records. -/
def abortCount (rs : List JRec) : Nat :=
  (rs.filter fun r => match r.payload with
    | .abort _ => true
    | _ => false).length

/-- The restart beat of a command's last ABORT record. -/
def lastRestart (rs : List JRec) : Option Nat :=
  (rs.filterMap fun r => match r.payload with
    | .abort b => some b
    | _ => none).getLast?

/-- The command as the rebuilt journal gives it: from its ACCEPT record, with the staged versions that the reserved area
still holds. -/
def State.rebuilt (s : State) (old : List Cmd) (r : JRec) (m : List Byte) : Cmd :=
  match old.find? fun c => c.acceptNo == r.acceptNo with
  | none => s.newCmd 0 r.acceptNo m
  | some c =>
    { c with
      cores := [], ended := [], kill := none, preempts := [], attempts := if c.stage = .resolved then c.attempts else 0
      stage := if c.stage = .resolved then .resolved else .mirroring }

/-- The commands of a rebuilt journal. -/
def State.rebuildCmds (s : State) (recs : List JRec) : List Cmd :=
  recs.filterMap fun r => match r.payload with
    | .accept m => some (s.rebuilt s.cmd.cmds r m)
    | _ => none

/-- A command is placed at the head of its job for a rerun (R361). Its epoch counts the attempts that have ended
(DESIGN CHOICE, assumption 22). -/
def State.replayRerun (s : State) (c : Cmd) (rs : List JRec) : State :=
  let a := c.acceptNo
  let n := abortCount rs
  let s := (s.releaseStaged a).modCmd a fun c =>
    { c with
      stage := .queued, attempts := n, epoch := n + 1, notBefore := 0
      code := 0, sub := 0, cause := 0, causePkg := 0
      group := c.group.map fun g => g.again (max g.start ((lastRestart rs).getD 0)) }
  s.countRerun c 15

/-- An accepted and unresolved command acts by its records (R361, R373, R376). -/
def State.replayCmd (recs : List JRec) (s : State) (a : Nat) : State :=
  match s.getCmd a with
  | none => s
  | some c =>
    if c.stage = .resolved then s
    else
      let rs := recs.filter fun r => r.acceptNo == a
      let find := fun (f : JRec → Bool) => (attemptRecs rs []).find? f
      let ended := fun (r : Reply) => s.modCmd a fun c => { c with stage := .resolved, final := some r }
      let isFail := fun (r : JRec) => r.payload == .fail
      let isDone := fun (r : JRec) => match r.payload with
        | .done _ _ => true
        | _ => false
      let isCommit := fun (r : JRec) => match r.payload with
        | .commitLocal _ => true
        | .commitGroup _ => true
        | _ => false
      let isPrepare := fun (r : JRec) => match r.payload with
        | .prepare _ => true
        | _ => false
      match find isFail, find isDone, find isCommit, find isPrepare with
      | some r, _, _, _ => ended (c.finalReply 4 r.code 0 0 0 false 0 [])
      | _, some r, _, _ => match r.payload with
        | .done x d => ended (c.finalReply 3 0 0 0 0 false x d)
        | _ => s
      | _, _, some r, _ =>
        let s := s.modCmd a fun c =>
          { c with stage := .committing, attempts := max 1 c.attempts, commitSeq := r.seq, commitBeat := r.beat, epoch := r.epoch }
        let s := match r.payload with
          | .commitGroup d => s.modGroup a fun g =>
              { g with decision := some { gid := g.gid, epoch := r.epoch, kind := 1, beat := d } }
          | _ => s
        s.goCommit a
      | _, _, _, some r =>
        let s := s.modCmd a fun c => { c with stage := .prepared, attempts := max 1 c.attempts, epoch := r.epoch }
        let s := s.modGroup a fun g => { g with k := g.nrdv, prepared := true, voted := some 1, lastQuery := s.edge }
        match s.decisionOf ((c.group.map (·.gid)).getD 0) r.epoch with
        | some d => (s.modGroup a fun g => { g with decision := some d }).applyDecision a d
        | none => (s.modCmd a fun c => { c with stage := .inDoubt }).cmdCnt 7
      | _, _, _, _ => if c.kind = 3 then s.modCmd a fun c => { c with stage := .queued, attempts := 0 } else s.replayRerun c rs

/-- A compatibility partition whose local state is lost: its unresolved commands FAIL, a group's package votes FAIL
(R387). -/
def State.compatLost (s : State) (a : Nat) : State :=
  match s.getCmd a with
  | none => s
  | some c =>
    if c.stage = .resolved ∨ s.power.stateKept ∨ (s.lp c.part).native then s
    else ((s.logEv { code := 0x42, unit := 0xF1, sub := 4, acceptNo := a }).voteNeg a true 0x42 0).failCmd a 0x42 4 0 s.pkgIdField false

/-- The journal is rebuilt and replayed (R361): `copy` is the partner's copy, read when there is a partner, and `keep`
the records before the first whose CRC fails (R359). -/
def State.replay (s : State) (copy : List JRec) (keep : Nat) : State :=
  if !s.cmd.replaying ∨ !s.power.ready then s
  else
    let recs := (if s.unpaired then s.cmd.journal else copy).take keep
    let cmds := s.rebuildCmds recs
    let gone := s.cmd.cmds.filter fun c => cmds.all fun x => x.acceptNo != c.acceptNo
    let s := gone.foldl (fun s c => s.releaseStaged c.acceptNo) s
    let s := s.modCmdU fun u =>
      { u with
        replaying := false, journal := recs, cmds := cmds, mirrors := []
        nextSeq := recs.foldl (fun n r => max n (r.seq + 1)) u.nextSeq
        nextAccept := recs.foldl (fun n r => max n (r.acceptNo + 1)) u.nextAccept
        clients := cmds.foldl (fun v c => vmod v c.client fun x => { x with nextReq := max x.nextReq (c.req + 1) }) u.clients
        parts := cmds.foldl (fun v c =>
          if c.kind = 3 ∨ c.stage = .resolved ∨ ((vget v c.part).ctxs.any fun x => x.job == c.job) = true then v
          else vmod v c.part fun p => { p with ctxs := p.ctxs ++ [{ job := c.job }] }) u.parts
        cnt := bumpBy u.cnt 12 recs.length }
    let s := recs.foldl (fun s r => match r.payload with
      | .decision d _ => s.keepDecision d
      | _ => s) s
    let ids := cmds.map (·.acceptNo)
    let s := ids.foldl (State.replayCmd recs) s
    (ids.foldl State.compatLost s).goObjects

/-- JOURNAL_REPLAY (R361). -/
def execJournalReplay (copy : List JRec) (keep : Nat) (s : State) : Answer := .next (s.replay copy keep)

end Sys2Proof.Machine
end

