-- ==== Sys2Proof/Machine/Sha3.lean ====
section
/-!
DEFINITION. SHA3-256 over byte strings (FIPS 202), which digests images, firmware and configuration (R388, R393, R442).
-/

namespace Sys2Proof.Machine

open Sys2Proof

/-- A 64-bit lane rotated left. -/
def rotl64 (v n : Nat) : Nat := (v * 2 ^ n) % 2 ^ 64 + v / 2 ^ (64 - n)

/-- Lane (x, y) of a state of 25 lanes, the rows one after the other; the coordinates count modulo 5. -/
def lane (a : List Nat) (x y : Nat) : Nat := a.getD (x % 5 + 5 * (y % 5)) 0

/-- Parity of a column of lanes. -/
def columnOf (a : List Nat) (x : Nat) : Nat := (List.range 5).foldl (fun p y => p ^^^ lane a x y) 0

/-- θ: every lane takes in the parities of the two columns beside its own, one of them rotated. -/
def mixColumns (a : List Nat) : List Nat :=
  let side := (List.range 5).map fun x => columnOf a (x + 4) ^^^ rotl64 (columnOf a (x + 1)) 1
  a.mapIdx fun i v => v ^^^ side.getD (i % 5) 0

/-- ρ and π: the walk over the lanes that begins at (1, 0) and goes from (x, y) to (y, 2x + 3y). What lies at step `t` is rotated by the
triangular number (t + 1)(t + 2) / 2 and moves to the next place of the walk. `n` steps remain. -/
def walkLanes (a : List Nat) : Nat → Nat → Nat → Nat → List Nat → List Nat
  | 0, _, _, _, b => b
  | n + 1, t, x, y, b =>
    let y' := (2 * x + 3 * y) % 5
    walkLanes a n (t + 1) y y' (b.set (y + 5 * y') (rotl64 (lane a x y) ((t + 1) * (t + 2) / 2 % 64)))

/-- χ: a lane is flipped where the next of its row is 0 and the one after it 1. -/
def mixRows (a : List Nat) : List Nat :=
  a.mapIdx fun i v =>
    let next := lane a (i % 5 + 1) (i / 5)
    let after := lane a (i % 5 + 2) (i / 5)
    v ^^^ (after ^^^ (next &&& after))

/-- The register behind the round constants, one step on: multiplication by x modulo x^8 + x^6 + x^5 + x^4 + 1. -/
def stepConst (r : Nat) : Nat := if 128 ≤ r then (2 * r) ^^^ 0x171 else 2 * r

/-- The constant of a round, and the register for the next round: step `j` of seven gives bit 2^j - 1. -/
def roundConst (r : Nat) : Nat × Nat :=
  (List.range 7).foldl (fun p j => (p.1 + p.2 % 2 * 2 ^ (2 ^ j - 1), stepConst p.2)) (0, r)

/-- A round, with the register behind the constants (ι). -/
def keccakRound (s : List Nat × Nat) : List Nat × Nat :=
  let a := mixColumns s.1
  let c := roundConst s.2
  ((mixRows (walkLanes a 24 0 1 0 a)).modify 0 fun v => v ^^^ c.1, c.2)

/-- Keccak-f[1600]: 24 rounds. -/
def keccakF (a : List Nat) : List Nat := ((List.range 24).foldl (fun s _ => keccakRound s) (a, 1)).1

/-- A little-endian lane of 8 bytes. -/
def laneOf : List Byte → Nat
  | [] => 0
  | b :: bs => b.toNat + 256 * laneOf bs

/-- One block of 136 bytes absorbed. -/
def absorb (a : List Nat) (block : List Byte) : List Nat :=
  keccakF (a.mapIdx fun i v => if i < 17 then v ^^^ laneOf ((block.drop (8 * i)).take 8) else v)

/-- Blocks of 136 bytes absorbed, the last one padded with 0x06 … 0x80. `n` bounds the blocks. -/
def sponge : Nat → List Nat → List Byte → List Nat
  | 0, a, _ => a
  | n + 1, a, m =>
    if 136 ≤ m.length then sponge n (absorb a (m.take 136)) (m.drop 136)
    else
      let pad := m ++ [(6 : Byte)] ++ List.replicate (135 - m.length) 0
      absorb a (pad.take 135 ++ [pad.getD 135 0 ||| 0x80])

/-- The `n` little-endian bytes of a lane. -/
def laneBytes : Nat → Nat → List Byte
  | 0, _ => []
  | n + 1, v => BitVec.ofNat 8 v :: laneBytes n (v / 256)

/-- SHA3-256: 32 bytes. -/
def sha3 (m : List Byte) : List Byte :=
  ((sponge (m.length / 136 + 1) (List.replicate 25 0) m).take 4).flatMap (laneBytes 8)

end Sys2Proof.Machine
end

