-- ==== Sys2Proof/Machine/ImageBytes.lean ====
section
/-!
DEFINITION. Journal records, images, seals and pointer records as bytes, and the check of a received image (R359, R388,
R392, R393, R394).
-/

namespace Sys2Proof.Machine

open Sys2Proof

/-! ## Images (Table 13.3) -/

/-- TNG_QUOTA_c_t of a quota (Table 9.16). -/
def Quota.reg (q : Quota) : Nat :=
  putBits (b2n q.auto) 1 63 + putBits (b2n (decide (q.limit < q.used))) 1 62 + putBits q.used 24 32 + putBits q.limit 24 0

/-- The image header: what Table 13.3 names, in its order; the manual gives no byte layout (PRESUMED, assumption 24). -/
def Image.header (i : Image) : List Byte :=
  let regs := i.clients.flatMap fun c =>
    leBytes 8 (putBits (b2n c.2.valid) 1 63 + c.2.part) ++ leBytes 8 c.2.nextReq
      ++ (alGet i.quotas c.1 []).flatMap fun q => leBytes 8 q.reg
  padTo 4096 (regs ++ leBytes 8 (putBits (b2n i.enable) 1 63) ++ (i.cores.toList.flatMap fun w => leBytes 8 w.toNat)
    ++ leBytes 8 i.nextAccept ++ leBytes 8 i.freezeBeat ++ leBytes 8 i.freezeSeq)

/-- The image from offset 4 MiB on. -/
def Image.body (i : Image) : List Byte :=
  let j := i.journal.flatMap JRec.bytes
  let e := i.objs.flatMap fun x => x.obj.entry
  padTo (roundUp j.length 4096) j ++ padTo (roundUp e.length 4096) e
    ++ i.objs.flatMap fun x => match x.content with
      | some m => padTo (roundUp x.obj.size 4096) (m.readN 0 x.obj.size)
      | none => []

/-- Pieces of `n` bytes of a list; `fuel` bounds them. -/
def piecesOf (n : Nat) : Nat → List Byte → List (List Byte)
  | 0, _ => []
  | fuel + 1, bs => if bs.isEmpty then [] else bs.take n :: piecesOf n fuel (bs.drop n)

/-- SHA3-256 of each 2 MiB chunk of a body. -/
def digestsOf (body : List Byte) : List Byte := (piecesOf 0x200000 (body.length / 0x200000 + 1) body).flatMap sha3

/-- Page `k` of an image in its slot. -/
def Image.page (i : Image) (k : Nat) : List Byte :=
  let bytes := if k = 0 then i.header
    else if k < 1024 then ((digestsOf i.body).drop (4096 * (k - 1))).take 4096
    else (i.body.drop (4096 * (k - 1024))).take 4096
  padTo 4096 bytes

/-! ## Seals and pointers (Tables 13.4 and 13.5) -/

/-- A seal record without its CRC: bytes 0 to 251. -/
def Seal.record (x : Seal) : List Byte :=
  padTo 252 (leBytes 2 x.pkg ++ [toB x.part, toB (x.slot + 2 * x.medium), 1, toB (b2n x.align)] ++ leBytes 2 0 ++ leBytes 8 x.gen
    ++ leBytes 8 x.freezeBeat ++ leBytes 8 x.freezeSeq ++ leBytes 8 x.nextAccept ++ leBytes 8 x.imageBytes ++ leBytes 8 x.cfgFp
    ++ leBytes 4 x.nchunk ++ leBytes 4 0 ++ x.digest)

/-- The seal of an image (Table 13.4). -/
def State.sealOf (s : State) (i : Image) (slot medium : Nat) : Seal :=
  { pkg := s.cfg.pkgId, part := i.part, slot := slot, medium := medium, align := (s.lp i.part).align, gen := i.gen
    freezeBeat := i.freezeBeat, freezeSeq := i.freezeSeq, nextAccept := i.nextAccept, imageBytes := i.bytes
    cfgFp := i.cfgFp, nchunk := i.chunks, digest := sha3 (i.header ++ digestsOf i.body) }

/-- A pointer record (Table 13.5). -/
def pointerBytes (gen slot : Nat) : List Byte :=
  let b := padTo 60 (leBytes 8 gen ++ [toB slot])
  b ++ crcBytes b

/-! ## The check of the partner (R393) -/

/-- Page `k` of a held slot; zeros where none was written. -/
def HeldSlot.page (h : HeldSlot) (k : Nat) : List Byte :=
  match h.pages.find? fun p => p.1 == k with
  | some p => p.2
  | none => List.replicate 4096 0

/-- The pages from `k` on, joined. -/
def HeldSlot.joined (h : HeldSlot) (k n : Nat) : List Byte := (List.range n).flatMap fun i => h.page (k + i)

/-- The image that a held slot holds agrees with a seal (R393, R394). -/
def HeldSlot.agrees (h : HeldSlot) (b : List Byte) : Bool :=
  let bytes := leAt b 40 8
  let nchunk := leAt b 56 4
  let body := ceilDiv (bytes - 2 ^ 22) 4096
  let listPages := ceilDiv (32 * nchunk) 4096
  if leAt b 4 1 = 1 ∧ h.pages.length = body + listPages + 1 ∧ nchunk = ceilDiv (bytes - 2 ^ 22) 0x200000 then
    let list := (h.joined 1 listPages).take (32 * nchunk)
    digestsOf ((h.joined 1024 body).take (bytes - 2 ^ 22)) == list && sha3 (h.page 0 ++ list) == (b.drop 64).take 32
  else false

end Sys2Proof.Machine
end

