-- ==== Sys2Proof/Machine/Lid.lean ====
section
/-!
DEFINITION. The securing engine: pairing, secures and their copies, flash and store copies, the partner's side, the risk
decay, and restorations (R383 to R411).
-/

namespace Sys2Proof.Machine

open Sys2Proof

/-! ## Pairing (R383 to R385) -/

/-- The reserve of the partner's images is taken (R385), or none is asked for. -/
def State.reserveOk (s : State) : Bool := s.tongs.reserve != 0

/-- The decision of Table 13.1 on a PAIR: state, code and detail. -/
def State.pairDecision (s : State) (pkg feed partner slotGib : Nat) : PairState × Nat × Nat :=
  let l := s.lid
  let same := (List.range 3).all fun k => coord pkg k == coord s.cfg.pkgId k
  if !l.partnerValid then (.unpaired, 0, 0)
  else if same then (.refused, 0x76, 1)
  else if l.partner ≠ pkg ∨ partner ≠ s.cfg.pkgId then (.refused, 0x76, 2)
  else if l.slotGib ≠ slotGib ∨ !s.reserveOk then (.refused, 0x76, 3)
  else if feed = s.power.feedId ∨ feed = 0xF ∨ s.power.feedId = 0xF then (.degraded, 0x77, 0)
  else (.paired, 0, 0)

/-- Every secure is abandoned when pairing ends (Table 13.6). -/
def State.endPairing (s : State) : State :=
  (s.lid.secure.toList ++ s.lid.frozen).foldl (fun s x => s.abandon x.part 6) s

/-- A pairing decision takes effect: state, log record, and the end of the pairing there was. -/
def State.setPair (s : State) (st : PairState) (code sub : Nat) : State :=
  let was := !s.unpaired
  let s := s.modLid fun l => { l with st := st }
  let s := if code = 0 then s else s.logEv { code := code, unit := 0xF3, sub := sub }
  if was ∧ (st = .unpaired ∨ st = .refused) then s.endPairing else s

/-- Valid images held for the partner: partition, slot, generation. -/
def LidSt.heldValid (l : LidSt) : List (Nat × Nat × Nat) :=
  l.heldSlots.filterMap fun h => match h.sealBytes with
    | some b => if leAt b 252 4 = ofLE (crcBytes (b.take 252)) then some (h.part, h.slot, h.gen) else none
    | none => none

/-- SLOT_ACK to the sender of a message of the Lid. -/
def State.ackSlot (s : State) (v : Via) (code sub : Nat) (slots : List (Nat × Nat × Nat)) : State :=
  s.sendFabric { body := .slotAck code sub slots, dst := v.src, dunit := v.unit, sunit := 0xF3, tag := v.tag }

/-- A PAIR received (R383): decided under Table 13.1 and answered; a copy that the partner did not seal is discarded
(Table 13.6). A REFUSED pairing stays refused. -/
def State.pairIn (s : State) (v : Via) (pkg feed partner slotGib : Nat) : State :=
  let (st, code, sub) := s.pairDecision pkg feed partner slotGib
  if s.lid.st = .refused then s.ackSlot v 0x76 sub []
  else
    let s := s.modLid fun l => { l with
      partnerFeed := feed, partnerId := pkg
      heldSlots := if pkg = l.partner then l.heldSlots.filter fun h => h.sealBytes.isSome else l.heldSlots }
    (s.setPair st code sub).ackSlot v (if st = .unpaired then 0x76 else code) (if st = .unpaired then 2 else sub) s.lid.heldValid

/-- PAIR (R383). -/
def execPair (v : Via) (pkg feed partner slotGib : Nat) (s : State) : Answer :=
  let (ok, s) := s.receive v 0x15
  if ok then .next (s.pairIn v pkg feed partner slotGib) else .next s

/-- PAIR is sent again while the partner is unreachable (R383). -/
def State.pairRetry (s : State) : State :=
  let l := s.lid
  if !s.power.ready ∨ !l.partnerValid ∨ (l.st ≠ .unpaired ∧ l.st ≠ .pairing) then s
  else
    let s := s.toEdge (l.pairEdge + 2 ^ 25)
    if s.edge < l.pairEdge + 2 ^ 25 then s
    else (s.modLid fun l => { l with pairOut := none, pairEdge := s.edge }).sendPair

/-- PAIR_RETRY (R383): the clock runs to 2^25 beats after the last PAIR. -/
def execPairRetry (s : State) : Answer := .next s.pairRetry

/-! ## The freeze (R390, R391) -/

/-- A commit of a partition lies between its COMMIT record and its last flip. -/
def State.committing (s : State) (p : Nat) : Bool := s.cmd.cmds.any fun c => c.part == p && c.stage == .committing

/-- A secure that is due reaches a commit point: the freeze is taken (R390). -/
def State.commitPoint (s : State) (p : Nat) : State :=
  let l := s.lp p
  if !s.secured p ∨ !l.due ∨ l.align ∨ s.committing p ∨ s.anyBrown ∨ s.securing p then s else s.freeze p

/-- FREEZE (R390). -/
def execFreeze (part : Nat) (s : State) : Answer := .next (s.commitPoint part)

/-! ## The owner's side of a secure (R392, R396, R398, R401, R402) -/

/-- A message of the running secure, with the state that sent it. -/
def State.sendSecure (s : State) (b : Body) : State :=
  let (tag, s) := s.sendLid b
  s.modLid fun l => { l with secure := l.secure.map fun x => { x with out := [tag], sentEdge := s.edge, tries := 1 } }

/-- The message that the running secure sends in its present step. -/
def State.secureBody (s : State) (x : Secure) : Body :=
  match x.step with
  | .clearSeal => .sealRec 0 x.part x.slot (List.replicate 256 0)
  | .pages => .slotWrite x.part x.slot (x.image.pageIndex x.page) (x.gen % 4096) (x.image.page (x.image.pageIndex x.page))
  | .sealing => .sealRec 1 x.part x.slot ((s.sealOf x.image x.slot 0).record ++ leBytes 4 0)
  | .pointer0 => .sealRec 2 x.part x.slot (pointerBytes x.gen x.slot)
  | .pointer1 => .sealRec 3 x.part x.slot (pointerBytes x.gen x.slot)

/-- What a page's read asks of the copy it is for: it is held, for a segment or until copies go on; it finds the extent lost; it
goes through. -/
structure PageRead where
  hold : Option (Nat × Nat × Nat × Nat) → State → State
  lost : State → State
  done : State → State

/-- A page of an image is read for a copy, at RATE (R395): content in a Stockpot slice or in far memory as Table 1.6 has it for the
state of its die, with the outcome of the read (R286, R287, R291, R296, Table 13.6). -/
def State.readPage (s : State) (i : Image) (k : Nat) (r : GranOutcome) (p : PageRead) : State :=
  if s.lid.rate = 0 then p.hold none s
  else match i.source k with
    | none => p.done s
    | some (o, off) =>
      let v := o.cur
      let access := if v.tier = 0 then s.sliceAccess (v.slice off) else s.copyAccess v
      if access = 1 then p.hold none s
      else if access = 2 then p.lost s
      else match r with
        | .ok n => p.done (iter (fun s => s.copyRereads v off) n s)
        | .replay => p.done (s.copyRereads v off)
        | .recon _ o =>
          if v.tier ≠ 0 ∨ 4096 ≤ o then p.done s
          else
            let k := s.segAt v (off + o)
            p.hold (some k) (((s.rgnCnt k.1 0 1).rgnCnt k.1 1 1).claimRebuild k)
        | .farBad sub rank w =>
          if v.tier ≠ 1 ∨ 4096 ≤ w then p.done s
          else
            let s := p.lost (s.farFails o.idx v sub rank (off + w) 0)
            if (s.tongs.byIdx o.idx).any fun y => y.cur.wheres == v.wheres then s.makeLost o.idx else s

/-- The running secure goes on with its present step; `r` is the outcome of reading its next page. One message is outstanding
at a time (DESIGN CHOICE, assumption 23). -/
def State.pushSecure (s : State) (r : GranOutcome) : State :=
  match s.lid.secure with
  | none => s
  | some x =>
    if x.out ≠ [] ∨ x.recon.isSome then s
    else if x.step ≠ .pages then s.sendSecure (s.secureBody x)
    else s.readPage x.image (x.image.pageIndex x.page) r
      { hold := fun k s => s.modLid fun l => { l with secure := l.secure.map fun y => { y with recon := k } }
        lost := fun s => (s.abandon x.part 3).startCopy
        done := fun s => (s.lidCnt 3 4096).sendSecure (s.secureBody x) }

/-- Journal records of a partition that both of its valid images cover are released with their commands (R360, R396). -/
def State.dropCovered (s : State) (p : Nat) : State :=
  match (s.lp p).seqA, (s.lp p).seqB with
  | some a, some b =>
    let q := min a b
    let finished := fun (c : Cmd) => c.part == p && c.stage == .resolved
      && s.cmd.journal.all fun r => r.acceptNo != c.acceptNo || decide (r.seq ≤ q)
    let gone := (s.cmd.cmds.filter finished).map (·.acceptNo)
    s.modCmdU fun u => { u with
      journal := u.journal.filter fun r => !gone.contains r.acceptNo
      cmds := u.cmds.filter fun c => !gone.contains c.acceptNo }
  | _, _ => s

/-- The next slot of a medium other than the partner: the one that its newest image does not lie in. -/
def LidPart.nextSlot (l : LidPart) (medium : Nat) : Nat :=
  let xs := l.images.filter fun i => i.1 == medium
  let top := maxL 0 (xs.map fun i => i.2.2.gen)
  match xs.find? fun i => i.2.2.gen == top with
  | some i => 1 - i.2.1
  | none => 0

/-- The image that a medium's slot of a partition holds. -/
def LidPart.put (l : LidPart) (medium slot : Nat) (i : Image) : LidPart :=
  { l with images := (l.images.filter fun x => !(x.1 == medium && x.2.1 == slot)) ++ [(medium, slot, i)] }

/-- First LBA of page `k` of a slot of the flash area (R398, Table 13.2). -/
def State.flashLba (s : State) (p slot k : Nat) : Nat :=
  let o := sumL ((List.range p).map fun q => if (s.lp q).native then (s.lp q).slotUnits else 0)
  s.lid.firstLba + 512 + slot * s.lid.slotGib * 2 ^ 18 + o * 512 + k

/-- A flash or store copy whose held extent is lost ends (DESIGN CHOICE, assumption 23). -/
def State.loseSlow (s : State) (store : Bool) : State :=
  (s.modLid fun l => if store then { l with store := none } else { l with flash := none }).logEv { code := 0x78, unit := 0xF3, sub := 3 }

/-- The next page of a flash or store copy is read. -/
def State.readSlow (s : State) (store : Bool) (x : SlowCopy) (r : GranOutcome) (done : State → State) : State :=
  let set := fun (w : Bool) (k : Option (Nat × Nat × Nat × Nat)) (s : State) => s.modLid fun l =>
    let f := fun (y : SlowCopy) => { y with waits := w, recon := k }
    if store then { l with store := l.store.map f } else { l with flash := l.flash.map f }
  s.readPage x.image (x.image.pageIndex x.page) r
    { hold := fun k s => set true k s, lost := fun s => s.loseSlow store, done := fun s => done (set false none s) }

/-- The flash copy issues its present write (R399); `r` is the outcome of reading its next page. -/
def State.pushFlash (s : State) (r : GranOutcome) : State :=
  match s.lid.flash with
  | none => s
  | some x =>
    let put := fun (i : OutItem) (s : State) => { s with outbox := s.outbox ++ [i] }
    match x.step with
    | 0 =>
      if x.recon.isSome then s
      else s.readSlow false x r (put (.nvmeWrite (s.flashLba x.part x.slot (x.image.pageIndex x.page)) false))
    | 1 => put .nvmeFlush s
    | _ => put (.nvmeWrite (s.lid.firstLba + x.part) true) s

/-- The I/O address that the store copy writes next, and its bytes (R401). The image lies in the range as in a slot of
Table 13.2 (DESIGN CHOICE, assumption 23). -/
def State.storeWrite (s : State) (x : SlowCopy) : Nat × List Byte :=
  if x.step = 0 then
    let k := x.image.pageIndex x.page
    (s.lid.storeAddr + 2 ^ 21 + 4096 * k, x.image.page k)
  else
    let b := (s.sealOf x.image 0 2).record
    (s.lid.storeAddr + 4096 * x.part, b ++ crcBytes b)

/-- The store copy's present write goes to the host (R401). -/
def State.sendStore (x : SlowCopy) (s : State) : State :=
  let (addr, b) := s.storeWrite x
  let (tag, s) := s.freshTag
  let s := s.sendHost 0xF3 tag (.hostWrite addr b)
  { s with hostReqs := s.hostReqs ++
    [{ tag := tag, write := true, addr := addr, len := b.length, owner := .lid x.page, sentEdge := s.edge
       data := b }] }

/-- The store copy goes on (R401); `r` is the outcome of reading its next page. -/
def State.pushStore (s : State) (r : GranOutcome) : State :=
  match s.lid.store with
  | none => s
  | some x =>
    if x.step ≠ 0 then s.sendStore x
    else if x.recon.isSome then s
    else s.readSlow true x r (State.sendStore x)

/-- Copies that RATE, a hold or a reconstruction held go on; the page that each reads then has no error (DESIGN CHOICE,
assumption 23). -/
def State.lidResume (s : State) : State :=
  let s := s.pushSecure (.ok 0)
  let s := if (s.lid.flash.any fun x => x.waits) = true then s.pushFlash (.ok 0) else s
  if (s.lid.store.any fun x => x.waits) = true then s.pushStore (.ok 0) else s

/-- A multiple of a cadence that is not 0. -/
def everyNth (g n : Nat) : Bool := n != 0 && g % n == 0

/-- The image that a slot of a medium held is there no more. -/
def LidPart.erase (l : LidPart) (medium slot : Nat) : LidPart :=
  { l with images := l.images.filter fun x => !(x.1 == medium && x.2.1 == slot) }

/-- A pointer copy of a medium is written (Table 13.5). -/
def LidPart.point (l : LidPart) (medium copy slot gen : Nat) : LidPart :=
  { l with ptrs := (l.ptrs.filter fun x => !(x.1 == medium && x.2.1 == copy)) ++ [(medium, copy, slot, gen)] }

/-- The flash copy begins to write over its slot. Its first page is no object content. -/
def State.startFlash (s : State) : State :=
  match s.lid.flash with
  | none => s
  | some x => (s.modLp x.part fun l => l.erase 1 x.slot).pushFlash (.ok 0)

/-- The flash copy and the store copy of a completed secure fall due (R398, R401). -/
def State.slowCopies (s : State) (x : Secure) : State :=
  let l := s.lid
  let s := if everyNth x.gen l.nFlash = true ∧ l.flashOk = true then
      if l.flash.isSome then s.lidCnt 8 1
      else (s.modLid fun l => { l with
        flash := some { part := x.part, slot := (s.lp x.part).nextSlot 1, gen := x.gen, image := x.image } }).startFlash
    else s
  if everyNth x.gen l.nStore then
    if l.store.isSome ∨ l.storeWait.isSome then s.lidCnt 10 1
    else (s.modLid fun l => { l with store := some { part := x.part, slot := x.gen, gen := x.gen, image := x.image } }).pushStore (.ok 0)
  else s

/-- The partner has written the seal: the new image is valid beside the previous one, and covers records with it (R394, R396). -/
def State.sealed (s : State) (x : Secure) : State :=
  (s.modLp x.part fun l =>
    { l.put 0 x.slot x.image with
      seqA := if x.slot = 0 then some x.image.freezeSeq else l.seqA
      seqB := if x.slot = 1 then some x.image.freezeSeq else l.seqB }).dropCovered x.part

/-- A secure completes (R392, R402). -/
def State.secureDone (s : State) (x : Secure) : State :=
  let s := (s.modLid fun l => { l with secure := none }).lidCnt 1 1
  let s := s.modLp x.part fun l =>
    { l with active := x.slot + 1, gen := x.gen, freezeBeat := x.image.freezeBeat, stepsDone := l.stepsSince }
  (s.slowCopies x).startCopy.retryPrepares

/-- A secure is abandoned because its message failed, and the next one begins (R397). -/
def State.dropSecure (s : State) (x : Secure) (detail : Nat) : State := (s.abandon x.part detail).startCopy

/-- An acknowledgement of the running secure's message: the next step (R392, R393). `r` is the outcome of reading the page that
follows. -/
def State.secureAck (s : State) (x : Secure) (code : Nat) (r : GranOutcome) : State :=
  if code ≠ 0 then ((s.abandonQuiet x.part).logEv { code := 0x79, unit := 0xF3, sub := x.part }).startCopy
  else
    let set := fun (st : SecStep) (page : Nat) (s : State) =>
      (s.modLid fun l => { l with secure := l.secure.map fun y => { y with out := [], step := st, page := page } }).pushSecure r
    match x.step with
    | .clearSeal => set .pages 0 (s.modLp x.part fun l =>
        { l.erase 0 x.slot with
          seqA := if x.slot = 0 then none else l.seqA
          seqB := if x.slot = 1 then none else l.seqB })
    | .pages => if x.page + 1 < x.pages then set .pages (x.page + 1) s else set .sealing 0 s
    | .sealing => set .pointer0 0 (s.sealed x)
    | .pointer0 => set .pointer1 0 (s.modLp x.part fun l => l.point 0 0 x.slot x.gen)
    | .pointer1 => (s.modLp x.part fun l => l.point 0 1 x.slot x.gen).secureDone x

/-- The answer to this package's PAIR (R383): its images that the partner does not hold are no longer known. -/
def State.pairAck (s : State) (code sub : Nat) (slots : List (Nat × Nat × Nat)) : State :=
  let has := fun (p slot gen : Nat) => slots.any fun x => x.1 == p && x.2.1 == slot && x.2.2 == gen
  let s := s.modLid fun l => { l with
    pairOut := none
    parts := vmapIdx l.parts fun p x =>
      let im := x.images.filter fun i => i.1 != 0 || has p i.2.1 i.2.2.gen
      let top := maxL 0 (im.filterMap fun i => if i.1 = 0 then some i.2.2.gen else none)
      let new := im.find? fun i => i.1 == 0 && i.2.2.gen == top
      { x with
        images := im
        active := (new.map fun i => i.2.1 + 1).getD 0, gen := max x.gen top
        freezeBeat := (new.map fun i => i.2.2.freezeBeat).getD 0
        seqA := (im.find? fun i => i.1 == 0 && i.2.1 == 0).map fun i => i.2.2.freezeSeq
        seqB := (im.find? fun i => i.1 == 0 && i.2.1 == 1).map fun i => i.2.2.freezeSeq } }
  if s.lid.st = .refused then s
  else if code ≠ 0 ∧ code ≠ 0x77 then s.setPair .refused 0x76 sub
  else if !s.reserveOk then s.setPair .refused 0x76 3
  else if code = 0 then s.setPair .paired 0 0
  else s.setPair .degraded (if s.lid.st = .degraded then 0 else 0x77) 0

/-- A SLOT_ACK received (R383, R392). -/
def State.slotAckIn (s : State) (tag code sub : Nat) (slots : List (Nat × Nat × Nat)) (r : GranOutcome) : State :=
  if s.lid.pairOut = some tag then s.pairAck code sub slots
  else match s.lid.secure with
    | none => s
    | some x => if x.out.contains tag then s.secureAck x code r else s

/-- SLOT_ACK (R392): `r` is the outcome of reading the page that the secure sends next. -/
def execSlotAck (v : Via) (code sub : Nat) (slots : List (Nat × Nat × Nat)) (r : GranOutcome) (s : State) : Answer :=
  let (ok, s) := s.receive v 0x33
  if ok then .next (s.slotAckIn v.tag code sub slots r) else .next s

/-! ## The partner's side (R392, R393, Table 13.2) -/

/-- The held slot of a partition is changed; it comes into being with its first message. -/
def State.modHeld (s : State) (p slot : Nat) (f : HeldSlot → HeldSlot) : State :=
  s.modLid fun l =>
    let is := fun (h : HeldSlot) => h.part == p && h.slot == slot
    { l with heldSlots :=
        if l.heldSlots.any is then modFirst is f l.heldSlots
        else l.heldSlots ++ [f { part := p, slot := slot, gen := 0 }] }

/-- The sender is the accepted partner, and the message names a partition and a slot of the reserve. -/
def State.fromPartner (s : State) (v : Via) (p slot : Nat) : Bool :=
  !s.unpaired && v.src == s.lid.partner && decide (p < 16) && decide (slot < 2)

/-- A SLOT_WRITE received (R392): the page is written and acknowledged. -/
def State.slotWriteIn (s : State) (v : Via) (p slot page gen : Nat) (data : List Byte) : State :=
  if !s.fromPartner v p slot ∨ s.lid.slotGib * 2 ^ 18 ≤ page then s.ackSlot v 0x76 2 []
  else
    let s := s.modHeld p slot fun h =>
      { h with gen := gen, pages := (h.pages.filter fun x => x.1 != page) ++ [(page, padTo 4096 data)] }
    (s.lidCnt 4 data.length).ackSlot v 0 0 []

/-- A seal record received (R392, R393): the seal is cleared, verified and written, or a pointer copy is written. -/
def State.sealIn (s : State) (v : Via) (what p slot : Nat) (b : List Byte) : State :=
  if !s.fromPartner v p slot then s.ackSlot v 0x76 2 []
  else match what with
    | 0 => (s.modHeld p slot fun h => { h with sealBytes := none, pages := [] }).ackSlot v 0 0 []
    | 1 =>
      let held := s.lid.heldSlots.find? fun h => h.part == p && h.slot == slot
      if (held.any fun h => h.agrees b) = true then
        let r := b.take 252
        let s := s.modHeld p slot fun h => { h with sealBytes := some (r ++ crcBytes r), gen := leAt b 8 8 }
        (s.lidCnt 5 1).ackSlot v 0 0 []
      else
        let s := (s.lidCnt 6 1).logEv { code := 0x79, unit := 0xF3, sub := p, pkg := v.src }
        s.ackSlot v 0x79 0 []
    | k =>
      let c := k - 2
      (s.modLid fun l => { l with
        heldPtr := (l.heldPtr.filter fun x => !(x.1 == p && x.2.1 == c)) ++ [(p, c, b)] }).ackSlot v 0 0 []

/-- SLOT_WRITE (R392). -/
def execSlotWrite (v : Via) (part slot page gen : Nat) (data : List Byte) (s : State) : Answer :=
  let (ok, s) := s.receive v 0x13
  if ok then .next (s.slotWriteIn v part slot page gen data) else .next s

/-- SEAL (R393): `what` is 0 for the clearing of the seal, 1 for the seal, 2 and 3 for the pointer copies. -/
def execSeal (v : Via) (what part slot : Nat) (bytes : List Byte) (s : State) : Answer :=
  let (ok, s) := s.receive v 0x14
  if ok then .next (s.sealIn v what part slot bytes) else .next s

/-! ## Flash and store (R398, R399, R401) -/

/-- The flash copy is abandoned (R399). -/
def State.dropFlash (s : State) : State :=
  (s.modLid fun l => { l with flash := none }).logEv { code := 0x78, unit := 0xF3, sub := 4 }

/-- A command of the flash copy completes (R399). -/
def State.nvmeDone (s : State) (ok : Bool) (r : GranOutcome) : State :=
  match s.lid.flash with
  | none => s
  | some x =>
    let set := fun (f : SlowCopy → SlowCopy) (s : State) => (s.modLid fun l => { l with flash := l.flash.map f }).pushFlash r
    let next := set fun y => { y with step := y.step + 1 }
    if x.waits then s
    else if !ok then s.dropFlash
    else match x.step with
      | 0 => if x.page + 1 < x.image.sendPages then set (fun y => { y with page := y.page + 1 }) s else next s
      | 1 => next s
      | 2 => next (s.modLp x.part fun l => l.put 1 x.slot x.image)
      | 3 => next (s.modLp x.part fun l => l.point 1 0 x.slot x.gen)
      | _ => ((s.modLid fun l => { l with flash := none }).modLp x.part fun l => l.point 1 1 x.slot x.gen).lidCnt 7 1

/-- NVME_COMPLETION (R399): `r` is the outcome of reading the page that the copy writes next. -/
def execNvmeCompletion (ok : Bool) (r : GranOutcome) (s : State) : Answer := .next (s.nvmeDone ok r)

/-- A HOST_WRITE of the store copy is answered (R401). -/
def State.storeAnswered (s : State) (mapped : Bool) (r : GranOutcome) : State :=
  match s.lid.store with
  | none => s
  | some x =>
    if !mapped then (s.modLid fun l => { l with store := none }).logEv { code := 0x78, unit := 0xF3, sub := 5 }
    else if x.step = 0 then
      let next := fun (y : SlowCopy) =>
        if y.page + 1 < y.image.sendPages then { y with page := y.page + 1 } else { y with step := 2 }
      (s.modLid fun l => { l with store := l.store.map next }).pushStore r
    else
      let s := s.modLid fun l => { l with store := none, storeWait := some (x.part, x.gen) }
      let s := (s.modLp x.part fun l => l.put 2 x.slot x.image).lidCnt 9 1
      s.logEv { code := 0x7B, unit := 0xF3, sub := x.part, extra := x.gen }

/-- LID_STORE_ACK written (R401). -/
def State.writeStoreAck (s : State) (value : Nat) : State :=
  match s.lid.storeWait with
  | some (p, g) =>
    if bitsOf value 35 32 = p ∧ bitsOf value 31 0 = g % 2 ^ 32 then s.modLid fun l => { l with storeWait := none } else s
  | none => s

/-! ## Risk (R403) -/

/-- The risk estimate loses an eighth each DECAY × 65,536 beats; DECAY 0 gives no period (DESIGN CHOICE,
assumption 23). -/
def State.riskDecay (s : State) : State :=
  if s.lid.decay = 0 then s
  else
    let due := s.lid.lastDecay + s.lid.decay * 65536
    let s := s.toEdge due
    if s.edge < due then s else s.modLid fun l => { l with risk := l.risk - l.risk / 8, lastDecay := s.edge }

/-- RISK_DECAY (R403): the clock runs to the period's end. -/
def execRiskDecay (s : State) : Answer := .next s.riskDecay

/-! ## Restoration (R407 to R411) -/

/-- A write of GO to LID_RESTORE_CTRL: the code of its CSR_REPLY, and the state (R387, R407, R408). -/
def State.writeRestore (s : State) (value : Nat) : Nat × State :=
  let p := bitsOf value 3 0
  let src := bitsOf value 9 8
  if !bitOf value 63 then (0, s)
  else if !(s.lp p).native then (0x7A, s.logEv { code := 0x7A, unit := 0xF3, sub := 3 })
  else if src = 3 then (0x7A, s.logEv { code := 0x7A, unit := 0xF3, sub := 4 })
  else (0, s.startRestore p src s.lid.restorePoint)

/-- The image that a pointer copy of a medium names, if the slot holds a valid image of its generation (R394). -/
def LidPart.named (l : LidPart) (medium : Nat) (x : Nat × Nat × Nat × Nat) : Option Image :=
  (l.images.find? fun i => i.1 == medium && i.2.1 == x.2.2.1 && i.2.2.gen == x.2.2.2).map (·.2.2)

/-- The image that a restoration selects (R394, R408): the valid one of a freeze beat; or that of the pointer copy with the higher GEN,
of the other copy, the valid one with the higher GEN. -/
def LidPart.select (l : LidPart) (medium point : Nat) : Option Image :=
  let xs := (l.images.filter fun i => i.1 == medium).map (·.2.2)
  if point ≠ 0 then xs.find? fun i => i.freezeBeat == point
  else
    let ptrs := sortBy (fun a b => decide (b.2.2.2 ≤ a.2.2.2)) (l.ptrs.filter fun x => x.1 == medium)
    match ptrs.findSome? (l.named medium) with
    | some i => some i
    | none =>
      let top := maxL 0 (xs.map (·.gen))
      xs.find? fun i => i.gen == top

/-- Records of a partition after a SEQ that make a command's effect its own: COMMIT of a local command, PREPARE of a group
command that has committed, DONE of an object request. -/
def lateRecs (recs : List JRec) (p q : Nat) : List JRec :=
  recs.filter fun r => r.part == p && decide (q < r.seq) && match r.payload with
    | .commitLocal _ => true
    | .commitGroup _ => true
    | .done _ _ => true
    | _ => false

/-- The version of an object leaves it at a restoration: a move of the object is given up, and its extents return to their tier once no
granule or copy of the Lid needs them (R259, R391). -/
def State.letGo (s : State) (o : Obj) : State :=
  let s := s.giveUpMove o.idx 0x5A
  let id := s.tongs.nextRelease
  let s := s.release o.owner o.handle o.cur none
  match s.tongs.releases.find? fun r => r.id == id with
  | none => s
  | some r =>
    if s.releaseBusy r then s
    else
      let s := s.modTongs fun t => { t with releases := t.releases.filter fun x => x.id != id }
      (s.giveBack r.tier r.press r.wheres).uncharge r.client r.tier r.units

/-- The frozen object takes its place again, with its content in the tier and placement of its entry (Table 13.10). -/
def State.restoreObj (s : State) (x : ImgObj) : State :=
  let old := s.tongs.byIdx x.obj.idx
  let base : Obj := { x.obj with phase := .none, evictQ := none, stagedBy := [] }
  let put := fun (s : State) (v : Version) =>
    s.modTongs fun t => { t with objs := (t.objs.filter fun o => o.idx != x.obj.idx) ++ [{ base with cur := v }] }
  let same := old.any fun o => o.gen == x.obj.gen && o.cur.wheres == x.obj.cur.wheres
  match x.content with
  | some m =>
    let s := match old with
      | some o => s.letGo o
      | none => s
    let (v, s) := s.newVersion x.obj.owner x.obj.cur.tier x.obj.cur.press x.obj.cur.place none x.obj.extents m
    if v.press then
      let (v, s) := s.codeAll (ceilDiv x.obj.size 4096) v
      put (s.uncharge x.obj.owner v.tier (v.charge - v.chargeOf)) { v with charge := v.chargeOf }
    else put s v
  | none =>
    if x.obj.cur.tier = 2 then
      if same then put s x.obj.cur
      else
        let (k, s) := s.fresh
        put s { x.obj.cur with content := Mem.undef k }
    else s

/-- Objects of a partition after a restoration (R408, step 4; Table 13.10). -/
def State.restoreObjs (s : State) (p : Nat) (i : Image) (late : List JRec) : State :=
  let touched := fun (h : Nat) => late.any fun r => match r.payload with
    | .commitLocal o => o.any fun e => e.handle == h && e.role != 4
    | .commitGroup _ => (s.getCmd r.acceptNo).any fun c => c.objs.any fun u => u.handle == h && 1 ≤ u.role && u.role ≤ 3
    | _ => false
  let mine := s.tongs.objs.filter fun o => o.part == p
  let later := mine.filter fun o => i.objs.all fun x => x.obj.handle != o.handle
  let s := later.foldl (fun s o =>
    (s.letGo o).modTongs fun t => { t with objs := t.objs.filter fun y => y.idx != o.idx }) s
  let lost := mine.filter fun o =>
    (i.objs.any fun x => x.obj.handle == o.handle && x.content.isNone && x.obj.cur.tier != 2) && touched o.handle
  let s := lost.foldl (fun s o => (s.modObj o.idx fun o => { o with st := .lost }).lidCnt 15 1) s
  i.objs.foldl State.restoreObj s

/-- A command of a restored partition is re-established, or stays as it is (R408, step 5; R409, R410). -/
def State.reestablish (s : State) (p : Nat) (late : List JRec) (rs : List JRec) (a : Nat) : State :=
  match s.getCmd a with
  | none => s
  | some c =>
    match late.find? fun r => r.acceptNo == a with
    | none => s
    | some r =>
      let redo := match r.payload with
        | .done h _ => if c.objReq.op = 0x01 then some h else none
        | _ => none
      let epoch := max r.epoch (abortCount rs) + 1
      let s := s.modCmd a fun c =>
        { c with
          stage := .queued, restored := true, redo := redo, epoch := epoch, attempts := max 1 (abortCount rs), notBefore := 0
          cores := [], ended := [], kill := none, code := 0, sub := 0, cause := 0, causePkg := 0
          objs := c.objs.map fun u => { u with staged := none, copied := true }
          group := c.group.map fun g => g.again s.lid.restoreStart }
      let s := s.countRerun c 14
      if c.group.isSome ∧ (s.lp p).align = false then
        let s := s.logEv { code := 0x42, unit := 0xF1, sub := 4, acceptNo := a }
        (s.modCmd a fun c => { c with restored := false }).failCmd a 0x42 4 0 s.pkgIdField false
      else s

/-- A restoration has read its image (R408, steps 2 to 6): `ok` is the outcome of the check. It waits for a running
command to have stopped, and for RATE to let it read (R395). -/
def State.restored (s : State) (p : Nat) (ok : Bool) : State :=
  match s.lid.restoring.find? fun r => r.part == p with
  | none => s
  | some r =>
    if (s.part p).running.isSome ∨ s.lid.rate = 0 then s
    else
      let s := s.modLid fun l => { l with restoring := l.restoring.filter fun x => x.part != p }
      let fail := fun (d : Nat) => s.logEv { code := 0x7A, unit := 0xF3, sub := d }
      let up := match r.source with
        | 0 => !s.unpaired
        | 1 => s.lid.flashOk
        | _ => decide ((s.port 16).st = .active)
      if !up then fail 4
      else match (s.lp p).select r.source r.point with
        | none => fail 1
        | some i =>
          if !ok then fail 2
          else
            let recs := i.journal ++ s.cmd.journal.filter fun x => x.part == p && i.journal.all fun y => y.seq != x.seq
            let late := lateRecs recs p i.freezeSeq
            let missing := recs.filterMap fun x => match x.payload with
              | .accept m => if (s.getCmd x.acceptNo).isSome then none else some (s.newCmd 0 x.acceptNo m)
              | _ => none
            let s := s.modCmdU fun u => { u with
              cmds := sortBy (fun a b => decide (a.acceptNo ≤ b.acceptNo)) (u.cmds ++ missing)
              journal := u.journal ++ i.journal.filter fun x => u.journal.all fun y => y.seq != x.seq }
            let s := s.restoreObjs p i late
            let s := s.modCmdU fun u => { u with
              clients := i.clients.foldl (fun v c =>
                vmod v c.1 fun x => { valid := c.2.valid, part := c.2.part, nextReq := max x.nextReq c.2.nextReq }) u.clients
              nextAccept := if r.source = 0 then max u.nextAccept i.nextAccept else i.nextAccept + 2 ^ 32 }
            let s := s.modPart p fun x => { x with enable := i.enable, cores := i.cores }
            let install := fun (l : List Quota) (k : Nat) (z : Quota) =>
              { z with auto := (l.getD k {}).auto, limit := (l.getD k {}).limit }
            let s := s.modTongs fun t =>
              { t with quotas := i.quotas.foldl (fun v q => vmod v q.1 fun x => vmapIdx x (install q.2)) t.quotas }
            let ids := (s.cmd.cmds.filter fun c => c.part == p).map (·.acceptNo)
            let s := ids.foldl (fun s a =>
              if (late.any fun r => r.acceptNo == a) = true then
                s.reestablish p late (recs.filter fun r => r.acceptNo == a) a
              else if (missing.any fun c => c.acceptNo == a) = true then State.replayCmd recs s a
              else s) s
            let s := s.modLp p fun l => { l with stepsSince := 0, stepsDone := 0 }
            let s := (s.modPart p fun x => { x with heldRestore := false }).lidCnt (if r.source = 0 then 11 else 12) 1
            ((s.logEv { code := 0x7C, unit := 0xF3, sub := 0, extra := i.gen }).goObjects).retryWaits

/-- ROW_RECONSTRUCTED (R291): segment `seg` of physical row `row` of physical bank `bank` of slice `slice`; a copy of the Lid that
waited for it goes on. -/
def execRowReconstructed (slice bank row seg : Nat) (f : RowFound) (s : State) : Answer :=
  .next (s.reconstructed (slice, bank, row, seg) f).lidResume

/-- RESTORATION_COMPLETE (R408). -/
def execRestorationComplete (part : Nat) (ok : Bool) (s : State) : Answer := .next (s.restored part ok)

end Sys2Proof.Machine
end

