-- ==== Sys2Proof/Machine/Remote.lean ====
section
/-!
DEFINITION. Messages of the Exchange: arrivals, credits and their answers (R122 to R129).
-/

namespace Sys2Proof.Machine

open Sys2Proof

/-! ## Arrivals (R122, R123, R126, R128) -/

/-- The body of a PUT departs from Table 4.15 (R125). -/
def PutArrival.bad (p : PutArrival) : Bool :=
  let l := p.data.length
  decide (l < 64) || decide (2048 < l) || l % 64 != 0 || p.offset % 64 != 0 || decide (2 ^ 23 ≤ p.offset) || decide (15 < p.win)
    || decide (2 ^ 64 ≤ p.identity) || decide (2 ^ 16 ≤ p.epoch) || decide (511 < p.index)

/-- The arrival that the bytes of a PUT message spell (Table 4.15). -/
def putOfBytes (m : List Byte) : PutArrival :=
  let at_ := fun i n => leAt m (16 + i) n
  { srcPkg := rxSrc m, srcCore := rxSunit m, dstCore := rxUnit m, tag := rxTag m, identity := at_ 0 8, epoch := at_ 8 2
    win := at_ 10 1 % 16, mode := bitOf (at_ 10 1) 7, offset := at_ 12 4, index := at_ 20 2, data := (m.drop 48).take (rxLen m - 32) }

/-- The bytes of a PUT message depart from Table 4.15, or their LEN disagrees with LENGTH (R125). -/
def putBytesBad (m : List Byte) : Bool :=
  bitsOf (leAt m 26 1) 6 4 != 0 || leAt m 27 1 != 0 || decide (2 ^ 23 ≤ leAt m 28 4) || leAt m 38 10 != 0
    || rxLen m != 32 + leAt m 32 4

/-- A credit granted to the sender covers an arrival (Table 4.5). -/
def OwnCredit.takes (x : OwnCredit) (p : PutArrival) : Bool :=
  x.win == p.win && x.pkg == p.srcPkg && x.core == p.srcCore && decide (x.offset ≤ p.offset)
    && decide (p.offset + p.data.length ≤ x.offset + x.length) && decide (x.written + p.data.length ≤ x.length)

/-- The disposition of an arrival: the first row of Table 4.5 that applies. -/
def CoreSt.dispose (c : CoreSt) (p : PutArrival) : PutResult :=
  let w := vget c.wins p.win
  if c.st = .idle ∨ c.st = .aborting ∨ c.identity ≠ p.identity then .stale
  else if p.epoch ≠ (if w.isOpen then w.epoch else c.epoch) then .stale
  else if !w.isOpen then .violation 0x19
  else if w.mode ≠ p.mode ∨ w.length < p.offset + p.data.length then .violation 0x18
  else if !w.mode ∧ (c.ownCredits.all fun x => !x.takes p) = true then .violation 0x17
  else .written

/-- An arrival is written, and its credit or its window's token counts it (R126, R128). Of several credits that cover it
the one granted first counts it (R128 names none; DESIGN CHOICE, assumption 39). -/
def State.writeArrival (s : State) (n : Nat) (p : PutArrival) : State :=
  let w := vget (s.core n).wins p.win
  let s := s.modCore n fun c =>
    let c := { c with skillet := c.skillet.writeN (w.base + p.offset) p.data }
    (c.xchBump 0 1).xchBump 1 p.data.length
  if w.mode then s.signal n w.tk 1 5 0
  else match (s.core n).ownCredits.find? fun x => x.takes p with
    | none => s
    | some x =>
      let done := x.written + p.data.length == x.length
      let s := s.modCore n fun c => { c with
        ownCredits :=
          if done then c.ownCredits.filter fun y => y.tag != x.tag
          else modFirst (fun y => y.tag == x.tag) (fun y => { y with written := y.written + p.data.length }) c.ownCredits }
      if done then s.signal n x.tk 1 5 0 else s

/-- PUT_ACK to the sender. -/
def State.ackPut (s : State) (p : PutArrival) (r : PutResult) : State :=
  s.sendFabric { body := .putAck r, dst := p.srcPkg, dunit := p.srcCore, sunit := p.dstCore, tag := p.tag }

/-- A PUT arrival at its owner core (R122, R123). -/
def State.putArrive (s : State) (p : PutArrival) : State :=
  let n := p.dstCore
  let r := (s.core n).dispose p
  match r with
  | .written => ((s.writeArrival n p).ackPut p r).settle n
  | .stale => (s.modCore n fun c => c.xchBump 2 1).ackPut p r
  | .violation code =>
    let s := (s.modCore n fun c => c.xchBump 3 1).logEv { coreEv n 5 code with
      pkg := p.srcPkg, cause := 0, extra := p.win + 16 * p.offset + 2 ^ 27 * p.srcCore }
    s.ackPut p r

/-- A PUT message is received (R125, R330), read from its bytes when they came as flits. -/
def State.putMsg (s : State) (v : Via) (p : PutArrival) : State :=
  let raw := s.rxFind v 0x10
  let p := (raw.map putOfBytes).getD p
  let (ok, s) := s.receiveCore v 0x10 p.dstCore (.putMsg v p)
  if !ok then s
  else if p.bad ∨ raw.any putBytesBad then s.rxInvalid v.port v.src
  else s.putArrive { p with srcPkg := v.src, srcCore := v.unit, tag := v.tag }

/-- A PUT_ACK is received by the sender core (R123). -/
def State.putAck (s : State) (v : Via) (n : Nat) (r : PutResult) : State :=
  let (ok, s) := s.receiveCore v 0x30 n (.putAck v n r)
  if !ok then s
  else match (s.core n).puts.find? fun x => x.tag == v.tag with
    | none => s
    | some x =>
      let s := s.modCore n fun c => { c with puts := c.puts.filter fun y => y.tag != v.tag }
      match r with
      | .written => (s.modCore n fun c => c.answered v.tag).settle n
      | .stale => (s.modCore n fun c => (c.answered v.tag).xchBump 8 1).settle n
      | .violation code => s.raiseFault n 5 code x.pc (.skillet x.src)

/-! ## Credits (R127, R129) -/

/-- The sender core's answer to a credit. -/
def CoreSt.takeCredit (c : CoreSt) (g : GrantBody) : GrantResult :=
  if c.st = .idle ∨ c.st = .aborting ∨ c.identity ≠ g.identity ∨ c.epoch ≠ g.epoch then .dropped
  else if 32 ≤ c.credits.length then .full
  else .accepted

/-- A credit reaches the sender core (R127). -/
def State.grantMsg (s : State) (v : Via) (g : GrantBody) : State :=
  let n := g.dstCore
  let (ok, s) := s.receiveCore v 0x11 n (.grantMsg v g)
  if !ok then s
  else
    let r := (s.core n).takeCredit g
    let s := if r = .accepted then s.modCore n fun c =>
        { c with credits := c.credits ++
          [{ pkg := v.src, core := v.unit, win := g.win, offset := g.offset, length := g.length }] }
      else s
    let s := s.sendFabric { body := .grantAck r, dst := v.src, dunit := v.unit, sunit := n, tag := v.tag }
    if r = .accepted then s.settle n else s

/-- The owner receives the answer to a credit (R127). A FULL credit that was cancelled meanwhile is resent no more. -/
def State.grantAck (s : State) (v : Via) (n : Nat) (r : GrantResult) : State :=
  let (ok, s) := s.receiveCore v 0x31 n (.grantAck v n r)
  if !ok then s
  else
    let held := (s.core n).ownCredits.any fun x => x.tag == v.tag
    let mod := fun (c : CoreSt) (f : OwnCredit → OwnCredit) => { c with ownCredits := modFirst (fun x => x.tag == v.tag) f c.ownCredits }
    match r with
    | .accepted =>
      (s.modCore n fun c => ((mod c fun x => { x with accepted := true, full := false }).answered v.tag).xchBump 4 1).settle n
    | .dropped =>
      (s.modCore n fun c =>
        (({ c with ownCredits := c.ownCredits.filter fun x => x.tag != v.tag }).answered v.tag).xchBump 5 1).settle n
    | .full =>
      if held then s.modCore n fun c => mod c fun x => { x with full := true }
      else (s.modCore n fun c => c.answered v.tag).settle n

/-- A credit answered FULL is sent again, one beat after it was last sent (R127). -/
def State.grantResend (s : State) (n tag : Nat) : State :=
  match (s.core n).ownCredits.find? fun x => x.tag == tag && x.full with
  | none => s
  | some x =>
    let s := s.toEdge (x.lastEdge + 1)
    if s.edge < x.lastEdge + 1 then s
    else
      let again := fun (y : OwnCredit) => { y with lastEdge := s.edge, tries := 1 }
      let s := s.modCore n fun c => { c with ownCredits := modFirst (fun y => y.tag == tag) again c.ownCredits }
      s.sendCredit n x

/-! ## The rows -/

/-- PUT_MSG (R122). -/
def execPutMsg (v : Via) (p : PutArrival) (s : State) : Answer := .next (s.putMsg v p)
/-- PUT_ACK (R123): to core `core`, which sent the arrival with the tag. -/
def execPutAck (v : Via) (core : Nat) (r : PutResult) (s : State) : Answer := .next (s.putAck v core r)
/-- GRANT_MSG (R127). -/
def execGrantMsg (v : Via) (g : GrantBody) (s : State) : Answer := .next (s.grantMsg v g)
/-- GRANT_ACK (R127): to the owner core `core`. -/
def execGrantAck (v : Via) (core : Nat) (r : GrantResult) (s : State) : Answer := .next (s.grantAck v core r)
/-- GRANT_RESEND (R127). -/
def execGrantResend (core tag : Nat) (s : State) : Answer := .next (s.grantResend core tag)

end Sys2Proof.Machine
end

