-- ==== Sys2Proof/Machine/Power.lean ====
section
/-!
DEFINITION. Rails, brown-hold and degraded hold, the power governor and thermal throttling (R414 to R427).
-/

namespace Sys2Proof.Machine

open Sys2Proof

/-! ## Rails (R414, R417, Table 14.1) -/

/-- Dies that the warning band of a rail holds (Table 14.1). -/
def railDies (r : Nat) : List Nat :=
  if r < 4 then [r] else if r = 4 ∨ r = 5 ∨ r = 6 ∨ r = 10 then [0, 1, 2, 3] else []

/-- The state with a rail changed. -/
def State.modRail (s : State) (r : Nat) (f : Rail → Rail) : State := s.modPower fun p => { p with rails := vmod p.rails r f }

/-- A rail has been in its warning band for 200 ns (R417). -/
def State.railWarns (s : State) (r : Nat) : State :=
  if 11 ≤ r then s
  else
    let s := (s.modRail r fun x => { x with st := 1 }).modPower fun p => { p with brown := true }
    let s := ((s.pwrCnt 8 1).logEv { code := 0x80, unit := 0xF8, inst := r, sub := r }).addRisk 4
    (railDies r).foldl (fun s d => s.modDie d fun x =>
      if x.st = .active then
        { x with
          holdDue := some (x.holdDue.getD (s.edge + 1))
          causes := if x.causes.contains r then x.causes else x.causes ++ [r] }
      else x) s

/-- RAIL_WARNING (R417). -/
def execRailWarning (rail : Nat) (s : State) : Answer := .next (s.railWarns rail)

/-- Dies whose hold is due enter BROWN_HOLD at their edge (R417); targeted tests on them are deferred (R304). -/
def State.brownEnter (s : State) : State :=
  let due := s.dies.toList.filterMap (·.holdDue)
  if due = [] then s
  else
    let s := s.toEdge (minL (maxL 0 due) due)
    let enters := fun (d : DieSt) => d.holdDue.any (fun e => decide (e ≤ s.edge)) && d.st == .active
    let held := (List.range 4).filter fun k => enters (s.die k)
    let s : State := { s with dies := vmap s.dies fun d => match d.holdDue with
        | some e =>
          if s.edge < e then d
          else if d.st = .active then { d with st := .brownHold, holdEdge := s.edge, holdDue := none }
          else { d with holdDue := none }
        | none => d }
    held.foldl State.deferTests s

/-- BROWN_HOLD_ENTER (R418): the clock runs to the beat edge. -/
def execBrownHoldEnter (s : State) : Answer := .next s.brownEnter

/-- A rail has recovered (R414); far-memory granules and copies of the Lid go on once VDDQ_LP has
(Table 14.1). -/
def State.railRecovers (s : State) (r : Nat) : State :=
  if 11 ≤ r ∨ (vget s.power.rails r).st = 0 then s
  else
    let s := s.modRail r fun x => { x with st := 0, recovered := s.edge }
    if r = 8 then
      let free := fun (g : Granule) => if g.tier = 1 then { g with held := false } else g
      State.lidResume { s with cores := vmap s.cores fun c =>
          { c with sm := { c.sm with tags := vmap c.sm.tags fun t => { t with g := t.g.map fun p => (p.1, free p.2) } } } }
    else s

/-- RAIL_RECOVERED (R414). -/
def execRailRecovered (rail : Nat) (s : State) : Answer := .next (s.railRecovers rail)

/-! ## The ends of a hold (R331, R420, R421) -/

/-- Every rail that caused the hold of a die has recovered. -/
def State.causesGone (s : State) (d : Nat) : Bool := (s.die d).causes.all fun r => (vget s.power.rails r).st == 0

/-- Edge of the last recovery among the rails that caused a hold. -/
def State.lastRecovery (s : State) (d : Nat) : Nat :=
  maxL (s.die d).holdEdge ((s.die d).causes.map fun r => (vget s.power.rails r).recovered)

/-- 2 ms in beats (R420). -/
def holdLimit : Nat := 53125

/-- Granules held at the slices of a die, or of held cores, are held no more. -/
def State.freeHeld (s : State) (d : Nat) : State :=
  let free := fun (g : Granule) => if g.slices.any fun r => sliceDie r == d then { g with held := false } else g
  { s with cores := vmap s.cores fun c =>
      { c with sm := { c.sm with tags := vmap c.sm.tags fun t => { t with g := t.g.map fun p => (p.1, free p.2) } } } }

/-- The core that a held message is for. -/
def heldCore : Instr → Option Nat
  | .putMsg _ p => some p.dstCore
  | .putAck _ c _ => some c
  | .grantMsg _ g => some g.dstCore
  | .grantAck _ c _ => some c
  | .parityNak _ u _ => some u
  | .errorMsg _ u _ _ => some u
  | _ => none

/-- A held message is discarded for its unit (R331). -/
def State.discardHeld (s : State) (i : Instr) : State :=
  match i with
  | .putMsg v p => s.noUnit v 0x10 p.dstCore
  | .putAck v c _ => s.noUnit v 0x30 c
  | .grantMsg v g => s.noUnit v 0x11 g.dstCore
  | .grantAck v c _ => s.noUnit v 0x31 c
  | .parityNak v u _ => s.noUnit v 0x3D u
  | .errorMsg v u _ _ => s.noUnit v 0x3E u
  | _ => s

/-- Messages held for the cores of a die leave the list, and an action is taken for each, in order. -/
def State.takeHeld (s : State) (d : Nat) (act : State → Instr → State) : State :=
  let mine := fun (i : Instr) => (heldCore i).any fun n => coreDie n == d
  (s.heldMsgs.filter mine).foldl act { s with heldMsgs := s.heldMsgs.filter fun i => !mine i }

/-- A secure that holds an extent in a die is abandoned (Table 13.6). -/
def State.dropSecureAt (s : State) (d : Nat) : State := s.dropImages fun i => i.holdsIn fun v => v.inDie (· == d)

/-- A die is lost to its commands: they stop with 0x14, accesses held at its slices and copies that
need them fail, messages held for its cores are discarded (R28, R421). -/
def State.dieStops (s : State) (d : Nat) : State := (((s.abortDie d).failHeld d).failCopies d).takeHeld d State.discardHeld

/-- A die enters DEGRADED_HOLD 2 ms after its hold began (R421): code 0x82. -/
def State.degrade (s : State) (d : Nat) : State :=
  if (s.die d).st ≠ .brownHold then s
  else
    let due := (s.die d).holdEdge + holdLimit
    let s := s.toEdge due
    if s.edge < due ∨ (s.causesGone d ∧ s.lastRecovery d ≤ due) then s
    else
      let s := s.modDie d fun x => { x with st := .degradedHold }
      let s := (s.modPower fun p => { p with degraded := true }).logEv { code := 0x82, die := d, unit := 0xF8, inst := d }
      (s.dieStops d).dropSecureAt d

/-- DEGRADED_HOLD (R421): the clock runs to 2 ms after the hold began. -/
def execDegradedHold (die : Nat) (s : State) : Answer := .next (s.degrade die)

/-! ## The governor (R423, R424) -/

/-- The effective cap mode: the lower cap, where 3 acts as 2 (R423, R483). -/
def PowerSt.cap (p : PowerSt) : Nat := max (min p.hostMode 2) (min p.trayMode 2)

/-- A cap mode in W. -/
def capWatts (c : Nat) : Nat := if c = 0 then 1500 else if c = 1 then 1200 else 900

/-- Governor periods in 1 ms, rounded up. -/
def msPeriods : Nat := 104

/-- The governor evaluates the power of a period (R424). -/
def State.govern (s : State) (watts : Nat) (volts : List Nat) : State :=
  let due := s.power.govAt + 256
  let s := s.toEdge due
  if s.edge < due then s
  else
    let cap := s.power.cap
    let s := if cap = s.power.capInForce then s
      else (s.modPower fun p => { p with capInForce := cap }).logEv { code := 0x86, unit := 0xF8, sub := cap }
    let w := capWatts cap
    let duty := (s.die 0).govDuty
    let low := decide (100 * watts < 97 * w)
    let rise := low && decide (4 ≤ s.power.lowRun + 1)
    let duty' := if w < watts then max 4 (duty - 1) else if rise then min 16 (duty + 1) else duty
    let minRun := if duty = 4 then s.power.minRun + 1 else 0
    let unmet := decide (w < watts) && decide (msPeriods ≤ minRun)
    let s := if unmet && !s.power.capUnmet then s.logEv { code := 0x85, unit := 0xF8 } else s
    let s : State := { s with dies := vmap s.dies fun d => { d with govDuty := duty' } }
    s.modPower fun p => { p with
      govAt := s.edge, watts := watts, capUnmet := p.capUnmet || unmet
      lowRun := if low && !rise then p.lowRun + 1 else 0, minRun := minRun
      rails := vmapIdx p.rails fun i x => { x with volt := volts.getD i x.volt } }

/-- GOVERNOR_PERIOD (R424): the clock runs to the period's end; the mean power of the package in W, and the rails as
measured in mV. -/
def execGovernorPeriod (watts : Nat) (volts : List Nat) (s : State) : Answer := .next (s.govern watts volts)

/-! ## Temperature (R426) -/

/-- A reading above T_WARN (R426): event 0x83, ALERT_N. -/
def State.thermWarns (s : State) (d temp : Nat) : State :=
  if 5 ≤ d then s
  else
    let was := decide (s.power.tWarn < vget s.power.tmax d)
    let s := s.modPower fun p => { p with tmax := vset p.tmax d temp }
    if temp ≤ s.power.tWarn ∨ was = true then s
    else (s.modPower fun p => { p with thermWarn := true }).logEv { code := 0x83, die := d, unit := 0xF8, inst := d }

/-- THERMAL_WARNING (R426): the highest reading of die `die`, 4 for the H-die, in °C. -/
def execThermalWarning (die temp : Nat) (s : State) : Answer := .next (s.thermWarns die temp)

/-- The thermal duty of a period of die `d`, 4 for the H-die, which throttles every C-die (R426). -/
def State.thermPeriod (s : State) (d temp : Nat) : State :=
  if 5 ≤ d then s
  else
    let due := vget s.power.thermAt d + 256
    let s := s.toEdge due
    if s.edge < due then s
    else
      let s := s.modPower fun p => { p with tmax := vset p.tmax d temp, thermAt := vset p.thermAt d s.edge }
      let ds := if d < 4 then [d] else [0, 1, 2, 3]
      if s.power.tWarn + 5 ≤ temp then
        let s := if vget s.power.throttled d then s
          else (s.modPower fun p => { p with throttled := vset p.throttled d true }).logEv { code := 0x84, die := d, unit := 0xF8, inst := d }
        (ds.foldl (fun s k => s.modDie k fun x => { x with thermDuty := max 4 (x.thermDuty - 1) }) s).pwrCnt 9 1
      else if temp < s.power.tWarn then
        let s := s.modPower fun p => { p with throttled := vset p.throttled d false }
        if d < 4 ∧ !vget s.power.throttled 4 then s.modDie d fun x => { x with thermDuty := min 16 (x.thermDuty + 1) } else s
      else s

/-- THERMAL_PERIOD (R426): the clock runs to the period's end. -/
def execThermalPeriod (die temp : Nat) (s : State) : Answer := .next (s.thermPeriod die temp)

end Sys2Proof.Machine
end

