-- ==== Sys2Proof/Machine/Reset.lean ====
section
/-!
DEFINITION. Resets: of a core, a region, a die at the host's request, of a die by its rail, and of the package (R27 to
R29, R422, R426 to R437).
-/

namespace Sys2Proof.Machine

open Sys2Proof

/-! ## Idle targets (R29, R429) -/

/-- Core `n` is IDLE, in service of a reset: not retired and not in reset. -/
def State.coreFree (s : State) (n : Nat) : Bool := (s.core n).st == .idle

/-- An extent of a slice lies in a version. -/
def Version.inSlice (v : Version) (r : Nat) : Bool := v.tier == 0 && !v.press && v.wheres.any fun w => w / 8192 == r

/-- An access to a slice is outstanding: of a granule, a program load's among them (R72), of a staging copy, or of a fill. -/
def State.sliceBusy (s : State) (r : Nat) : Bool :=
  (s.cores.toList.any fun c => c.sm.tags.toList.any fun t => t.g.any fun p => p.2.slices.contains r)
    || (s.cmd.cmds.any fun c => c.stage == .staging && c.objs.any fun u => !u.copied
        && ((u.staged.any fun v => v.inSlice r) || (s.tongs.byHandle u.handle).any fun o => o.cur.inSlice r))
    || s.tongs.objs.any fun o => o.st == .creating && o.cur.inSlice r

/-- A move or a secure holds an extent in a slice. -/
def State.sliceHeld (s : State) (r : Nat) : Bool :=
  (s.tongs.moves.any fun m => m.tgt.inSlice r || (s.tongs.byIdx m.idx).any fun o => o.cur.inSlice r)
    || s.heldImages.any fun i => i.objs.any fun x => x.content.isSome && x.obj.cur.inSlice r

/-- A targeted test runs in a region. -/
def State.regionTested (s : State) (r : Nat) : Bool :=
  s.integ.tests.any fun t => t.running && match t.loc with
    | .row sl _ _ => sl == r
    | l => l.core.any fun n => coreSlice n == r

/-- Region `r` is idle (R429). -/
def State.regionIdle (s : State) (r : Nat) : Bool :=
  ((List.range 12).all fun i => s.coreFree (12 * r + i)) && !s.sliceBusy r && !s.sliceHeld r && !s.regionTested r

/-- Die `d` is idle (R29, R421, R429). -/
def State.dieIdle (s : State) (d : Nat) : Bool :=
  ((List.range 4).all fun g => s.regionIdle (4 * d + g)) && (s.die d).causes.all fun r => (vget s.power.rails r).st == 0

/-! ## Block resets (R428, R429) -/

/-- A core is cleared and held in reset; a BIST slice on it is abandoned (R111, R307, R428). -/
def State.resetCore (s : State) (n : Nat) : State :=
  (s.leaveIdle n).modCore n fun c => { c.afterReset s.edge with inReset := true }

/-- The slice controller of a region is cleared; what the slice holds and what the flash records are kept (R428). -/
def Region.cleared (g : Region) : Region :=
  { g with rebuild := [], patrolWait := [], openRows := [], sparing := [], patrol := 0, cache := [] }

/-- A region's cores and slice controller are reset. -/
def State.resetRegion (s : State) (r : Nat) : State :=
  let s := (List.range 12).foldl (fun s i => s.resetCore (12 * r + i)) s
  s.modRegion r fun g => { g.cleared with inReset := true }

/-- Die-to-die links of a die: its CH link and its two CC links (R9). -/
def dieLinks (d : Nat) : List Nat := [d, 4 + d, 4 + (d + 3) % 4]

/-- A die and its link ends are reset. -/
def State.resetDie (s : State) (d : Nat) : State :=
  let s := (List.range 4).foldl (fun s g => s.resetRegion (4 * d + g)) s
  let s := (dieLinks d).foldl (fun s l => s.modLink l fun x => { x with up := Vector.replicate 2 false, recent := Vector.replicate 2 [] }) s
  s.modDie d fun x => { x with st := .bringup, causes := [], holdDue := none }

/-- A block reset begins: it runs until BLOCK_RESET_COMPLETE. -/
def State.beginReset (s : State) (b : BlockReset) : State :=
  let s := s.modPower fun p => { p with resets := (p.resets.filter fun x => x != b) ++ [b] }
  match b with
  | .core n => s.resetCore n
  | .region r => s.resetRegion r
  | .die d => s.resetDie d

/-- A block reset of the same target runs. -/
def State.resetting (s : State) (b : BlockReset) : Bool := s.power.resets.contains b

/-- CORE_RESET: the code that answers the write to RST_REQ, and the state (R429, R430). -/
def State.requestCore (s : State) (n : Nat) : Nat × State :=
  if 192 ≤ n ∨ s.retired n ∨ !s.coreFree n ∨ (s.core n).inReset ∨ s.coreTested n then (0x1F, s)
  else
    let s := s.logEv { code := 0x88, die := coreDie n, region := coreRegion n, core := n, unit := 0xF8, inst := coreDie n, sub := 1 }
    (0, s.beginReset (.core n))

/-- REGION_RESET (R429). -/
def State.requestRegion (s : State) (r : Nat) : Nat × State :=
  if 16 ≤ r ∨ !s.regionIdle r ∨ (s.region r).inReset then (0x1F, s)
  else (0, (s.logEv { sliceEv r 0x88 with unit := 0xF8, inst := sliceDie r, sub := 2 }).beginReset (.region r))

/-- DIE_RESET (R429). -/
def State.requestDie (s : State) (d : Nat) : Nat × State :=
  if 4 ≤ d ∨ !s.dieIdle d ∨ s.resetting (.die d) then (0x1F, s)
  else (0, (s.logEv { code := 0x88, die := d, unit := 0xF8, inst := d, sub := 3 }).beginReset (.die d))

/-- RST_REQ written (R429, Table 14.12). -/
def State.writeRst (s : State) (value : Nat) : Nat × State :=
  match bitsOf value 63 62 with
  | 0 => (0, s)
  | 1 => s.requestCore (bitsOf value 7 0)
  | 2 => s.requestRegion (bitsOf value 7 0)
  | _ => s.requestDie (bitsOf value 7 0)

/-- A core leaves reset, unless it is retired (R14). -/
def State.releaseCore (s : State) (n : Nat) : State :=
  s.modCore n fun c => { c with inReset := s.retired n, idleSince := s.edge }

/-- A region leaves reset. -/
def State.releaseRegion (s : State) (r : Nat) : State :=
  let s := (List.range 12).foldl (fun s i => s.releaseCore (12 * r + i)) s
  s.modRegion r fun g => { g with inReset := false }

/-- The links of a die train: both ends have to be in service. -/
def State.linksUp (s : State) (d : Nat) : State :=
  let ok := fun (e : Nat) => e == 4 || !([.reset, .bringup] : List _).contains (s.die e).st
  (dieLinks d).foldl (fun s l =>
    if (linkEnds l).all ok then s.modLink l fun x => { x with up := Vector.replicate 2 true } else s) s

/-- A die enters service: ACTIVE, or UNREACHABLE without its CH link (R27, R428). -/
def State.releaseDie (s : State) (d : Nat) : State :=
  let s := (List.range 4).foldl (fun s g => s.releaseRegion (4 * d + g)) s
  let s := s.modDie d fun x =>
    { x with st := if (s.link d).down then .unreachable else .active, causes := [], holdDue := none, failed := false }
  s.linksUp d

/-- A block reset has ended (R428). A die whose rail lies below reset stays in reset. -/
def State.resetDone (s : State) (b : BlockReset) : State :=
  if !s.resetting b then s
  else
    let low := match b with
      | .die d => (vget s.power.rails d).st == 2 || (vget s.power.rails 4).st == 2
      | _ => false
    if low then s
    else
      let s := s.modPower fun p => { p with resets := p.resets.filter fun x => x != b }
      match b with
      | .core n => s.releaseCore n
      | .region r => s.releaseRegion r
      | .die d => s.releaseDie d

/-- BLOCK_RESET_COMPLETE (R428). -/
def execBlockResetComplete (block : BlockReset) (s : State) : Answer := .next (s.resetDone block)

/-! ## Package reset (R428, R433) -/

/-- An accepted command as the reserved area keeps it over a package reset: no core runs it, and it waits for the replay
(R361). -/
def Cmd.afterReset (c : Cmd) : Cmd :=
  { c with
    cores := [], ended := [], kill := none, preempts := []
    stage := if c.stage = .resolved then .resolved else .mirroring }

/-- A flip that has not completed is undone: the old home stands, and its targets are free (Table 9.7). -/
def State.undoFlip (s : State) (f : Flip) : State :=
  match s.tongs.byIdx f.idx with
  | none => s
  | some o =>
    let s := s.dropVersion o.owner o.cur
    let s := s.modTongs fun t => { t with releases := t.releases.filter fun r => r.id != f.rel }
    s.modObj f.idx fun o => { o with cur := f.old, lastUse := f.lastUse }

/-- The Tongs as a package reset leaves its table and extents (R255, R259, R260, R275): blocks that are merged are coded, moves, flips,
releases and open CREATEs are given up. -/
def State.tongsSettled (s : State) : State :=
  let s := s.tongs.merge.foldl State.codeMerge s
  let s := s.tongs.flips.foldl State.undoFlip s
  let s := s.modTongs fun t => { t with moves := t.moves.map fun m => { m with begun := true } }
  let s := s.tongs.moves.foldl (fun s m => s.cancelMove m.idx) s
  let s := s.tongs.releases.foldl (fun s r => (s.giveBack r.tier r.press r.wheres).uncharge r.client r.tier r.units) s
  (s.tongs.objs.filter fun o => o.st = .creating).foldl (fun s o =>
    (s.dropVersion o.owner o.cur).modTongs fun t => { t with objs := t.objs.filter fun x => x.idx != o.idx }) s

/-- What the Tongs keeps over a package reset: the home table and the extents; its registers are at their reset values, and the host
pool is empty (R279, R428). -/
def State.tongsAfter (s : State) : TongsSt :=
  let s := s.tongsSettled
  { objs := s.tongs.objs.map fun o => { o with phase := .none, evictQ := none }
    gens := s.tongs.gens, nextRelease := s.tongs.nextRelease, farUsed := s.tongs.farUsed, mapsUsed := s.tongs.mapsUsed
    quotas := vmap s.tongs.quotas fun v => vmap v fun q => { used := q.used } }

/-- What a region keeps over a package reset: the extents in use, and what the retirement records of the flash hold (R305). -/
def State.regionsAfter (s : State) : Vector Region 16 :=
  vmap s.tongsSettled.regions fun g =>
    { slice := g.slice, retiredRows := g.retiredRows, testRows := g.testRows, rowMap := g.rowMap, bankMap := g.bankMap
      spareBanks := g.spareBanks, used := g.used, spareFor := g.spareFor }

/-- What the flash and the fuses keep of the firmware block. An ACTIVATE or an ARB_COMMIT that the reset interrupts leaves
the pointer, or each fuse bit, on either side: a free choice (R459). -/
def State.fwAfter (s : State) : FwSt :=
  let f := s.fw
  let moved := f.busy == 2 && Config.pick s.freeCtr % 2 == 1
  let burn := f.busy == 3
  { slotA := f.slotA, slotB := f.slotB
    active := f.active != moved, trial := f.trial || moved, attempted := f.attempted && !moved, reverted := f.reverted
    arb := if burn then f.arb + Config.pick s.freeCtr % (max f.arb f.svnRun - f.arb + 1) else f.arb
    revoke :=
      if burn && f.runRevoke && Config.pick (s.freeCtr + 1) % 2 == 1 then f.revoke ||| 2 ^ (1 - f.runKey) else f.revoke }

/-- A package reset with a cause begins (R428, R433, R434): everything is at its reset value but what Table 14.4 keeps.
`lost` tells that the stacks or the far memory do not keep their contents; SR_CLEAN is set on entry to the reset only. -/
def State.packageReset (s : State) (cause : Nat) (lost : Bool) : State :=
  let p := s.power
  let count := fun (v : Vector Nat 16) =>
    if cause = 3 then bump v 10 else if cause = 5 then bump v 11 else if cause = 4 then bump v 12 else v
  { State.reset with
    pending := s.pending, freeCtr := s.freeCtr + 2, nextTag := s.nextTag, outbox := s.outbox
    regions := s.regionsAfter
    cores := vmapIdx s.cores fun n _ => { inReset := s.retired n }
    links := vmap s.links fun x => { dropped := x.dropped }
    ports := vmap s.ports fun q => { dropped := q.dropped }
    tongs := s.tongsAfter
    cmd := {
      cmds := s.cmd.cmds.map Cmd.afterReset, nextAccept := s.cmd.nextAccept, journal := s.cmd.journal
      nextSeq := s.cmd.nextSeq, partnerJrnl := s.cmd.partnerJrnl, partnerDec := s.cmd.partnerDec }
    lid := {
      parts := vmap s.lid.parts fun x => { images := x.images, gen := x.gen }
      heldSlots := s.lid.heldSlots, heldPtr := s.lid.heldPtr }
    integ := {
      skilletSpares := s.integ.skilletSpares, retired := s.integ.retired, farRetired := s.integ.farRetired
      flashRows := s.integ.flashRows }
    power := {
      srClean := !lost && cause != 1 && (!p.inReset || p.srClean)
      fusedMv := p.fusedMv, trayMode := if cause = 1 then 0 else p.trayMode, rails := p.rails, tmax := p.tmax
      ballBoot := p.ballBoot, ballClk := p.ballClk, ballFeed := p.ballFeed, ballSlot := p.ballSlot
      bootSrc := p.bootSrc, clkMode := p.clkMode, feedId := p.feedId, traySlot := p.traySlot
      cause := cause, inReset := true, thermTrip := p.thermTrip || cause == 5, cnt := count (Vector.replicate 16 0) }
    cfg := { active := s.cfg.active, staged := s.cfg.staged, stage := if s.cfg.staged.isSome then 3 else 0 }
    fw := s.fwAfter
    side := s.side }

/-- A die reset that a rail causes: its commands are aborted with 0x14, and their attempts end with their cores' reset
(R422). -/
def State.railDie (s : State) (d : Nat) : State :=
  let cmds := (s.cmd.cmds.filter fun c => c.cores.any fun n => coreDie n == d).map (·.acceptNo)
  let s := (s.dieStops d).dropSecureAt d
  let s := s.beginReset (.die d)
  let s := s.modDie d fun x => { x with st := .reset }
  cmds.foldl (fun s a => s.endAttempt a) s

/-- A rail falls below its reset threshold: the reset of Table 14.2. -/
def State.railFalls (s : State) (r : Nat) : State :=
  if 11 ≤ r then s
  else
    let s := s.modRail r fun x => { x with st := 2 }
    if r < 4 then s.railDie r
    else if r = 4 then [0, 1, 2, 3].foldl (fun s d => s.railDie d) s
    else if r = 9 then
      s.modLid fun l => { l with flashOk := false, nvmeReady := false, pcieState := 0, pcieWidth := 0, pcieRate := 0, pcieFlit := false }
    else s.packageReset 4 (r == 5 || r == 8)

/-- RAIL_BELOW_RESET (R422). -/
def execRailBelowReset (rail : Nat) (s : State) : Answer := .next (s.railFalls rail)

/-- THERMAL_TRIP (R426): a sensor of die `die` reaches 115 °C. -/
def execThermalTrip (die temp : Nat) (s : State) : Answer :=
  if die < 5 ∧ 115 ≤ temp then
    .next ((s.modPower fun p => { p with tmax := vset p.tmax die temp }).packageReset 5 false)
  else .next s

/-- FW_WATCHDOG (R428): 2^25 beats without service of the management firmware. -/
def execFwWatchdog (s : State) : Answer := .next (s.packageReset 3 false)

/-- PACKAGE_RESET (R431, R433): by power-on, or by a low pulse of RST_N of `ns` nanoseconds; `taken` tells what the package
makes of a pulse between the limits. -/
def execPackageReset (powerOn : Bool) (ns : Nat) (taken : Bool) (s : State) : Answer :=
  if powerOn then .next (s.packageReset 1 true)
  else if 10000 ≤ ns ∨ (2000 ≤ ns ∧ taken) then .next (s.packageReset 2 false)
  else .next s

/-- RST_N is released: the straps are sampled and the boot ROM starts (R38, R427, R435 to R437); to read the local flash it lets the
endpoint leave reset (R439, R471; DEDUCED, assumption 25). Code 0x87 is the first
record (R494), so STATE_KEPT is decided here (R434; DESIGN CHOICE, assumption 25). -/
def State.release_ (s : State) (boot clk feed slot : Nat) (keep : Bool) : State :=
  if !s.power.inReset then s
  else
    let b := boot % 4
    let s := s.modPower fun p =>
      { p with
        inReset := false, stage := 1
        ballBoot := b, ballClk := clk % 4, ballFeed := feed % 16, ballSlot := slot % 8
        bootSrc := b, bootRsv := b == 0, clkMode := clk % 4, feedId := feed % 16, traySlot := slot % 8
        thermTrip := p.thermTrip && p.tmax.toList.any fun t => decide (105 ≤ t) }
    let s := s.modBeat fun x => { x with mode := if clk % 4 = 0 then 3 else clk % 4, strapRsv := clk % 4 == 0 }
    let kept := s.power.srClean && keep
    let s := s.modPower fun p => { p with stateKept := kept }
    let s := s.logEv { code := 0x87, unit := 0xF8, sub := s.power.cause, cause := b2n kept }
    let s := if b = 0 then s.logEv { code := 0x8B, unit := 0xF8 } else s
    let s := if clk % 4 = 0 then s.logEv { code := 0x39, unit := 0xF2 } else s
    let s := if b = 2 then s.modPower fun p => { p with perst := true } else s
    if b = 0 ∨ b = 3 then s.train 16 else s

/-- RESET_RELEASE (R435, R436): with the levels of the straps, and whether the far-memory configuration is that of the
previous boot and both home-table copies pass their check (R434). -/
def execResetRelease (boot clk feed slot : Nat) (keep : Bool) (s : State) : Answer := .next (s.release_ boot clk feed slot keep)

end Sys2Proof.Machine
end

