-- ==== Sys2Proof/Machine/Firmware.lean ====
section
/-!
DEFINITION. Fuses, the identity key, image verification, firmware slots and their update, and attestation (R450 to R464).
-/

namespace Sys2Proof.Machine

open Sys2Proof

/-! ## Identity (R450 to R452) -/

/-- Byte strings of the fuses and of the certificate: 0 DEVICE_SEED, 1 and 2 VKEY_HASH_0 and VKEY_HASH_1, 3 what the certificate holds
beside the identity: 12 bytes of date and key identifier, and the signature. -/
def fused (kind n : Nat) : List Byte := (List.range n).map (Config.fusedByte kind)

/-- The part number, ASCII "PV7-A4", zero padded (Table 16.10). -/
def partNumber : List Byte := padTo 16 [0x50, 0x56, 0x37, 0x2D, 0x41, 0x34]

/-- ξ of the identity key (R451). -/
def identSeed : List Byte :=
  sha3 ([0x41, 0x4B, 0x59, 0x2D, 0x50, 0x56, 0x37, 0x2D, 0x49, 0x44, 0x45, 0x4E, 0x54, 0x2D, 0x30, 0x31] ++ fused 0 32)

/-- The identity public key (R451). -/
def publicKey : List Byte := (List.range 1312).map (Config.mldsaByte 0 identSeed)

/-- DEVICE_ID (R451). -/
def deviceId : List Byte := (sha3 publicKey).take 16

/-- The device certificate (Table 15.2): its issue date, key identifier and signature are as Akyova wrote them. -/
def certificate : List Byte :=
  [1, 0, 0, 0] ++ deviceId ++ partNumber ++ (fused 3 12) ++ List.replicate 16 0 ++ publicKey ++ ((fused 3 2432).drop 12)
    ++ List.replicate 4 0

/-! ## Images (R453, R454) -/

/-- Bytes of an image by its header: 4,096 and the body. -/
def imageLen (header : List Byte) : Nat := 4096 + leAt header 16 4

/-- Layout, lengths and zero bytes of an image (Table 15.3). -/
def imageForm (b : List Byte) : Bool :=
  b.take 4 == [0x50, 0x56, 0x37, 0x49] && leAt b 4 2 == 1 && decide (leAt b 6 1 ≤ 1) && decide (leAt b 7 1 ≤ 64)
    && decide (1 ≤ leAt b 16 4) && decide (leAt b 16 4 ≤ 2 ^ 24 - 4096) && decide (leAt b 20 1 ≤ 1)
    && ((b.drop 21).take 43).all (· == 0) && ((b.drop 3796).take 300).all (· == 0) && b.length == imageLen b

/-- The first failure of an image, as a detail of Table 15.6 (R454). -/
def State.imageBad (s : State) (b : List Byte) : Option Nat :=
  let slot := leAt b 6 1
  let key := (b.drop 64).take 1312
  if !imageForm b then some 4
  else if sha3 key ≠ fused (1 + slot) 32 ∨ bitOf s.fw.revoke slot = true then some 1
  else if leAt b 7 1 < s.fw.arb then some 3
  else if !Config.mldsaOk 0 key (b.take 64 ++ b.drop 4096) ((b.drop 1376).take 2420) then some 2
  else none

/-- A firmware slot: false A, true B. -/
def FwSt.slot (f : FwSt) (b : Bool) : FwSlot := if b then f.slotB else f.slotA

/-- The firmware state with a slot changed. -/
def FwSt.modSlot (f : FwSt) (b : Bool) (g : FwSlot → FwSlot) : FwSt :=
  if b then { f with slotB := g f.slotB } else { f with slotA := g f.slotA }

/-- The state with the firmware block changed. -/
def State.modFw (s : State) (f : FwSt → FwSt) : State := { s with fw := f s.fw }

/-- Code 0x7E with a detail (R464). -/
def State.fwReject (s : State) (detail : Nat) : State :=
  (s.modFw fun f => { f with lastReject := detail }).logEv { code := 0x7E, unit := 0xFA, sub := detail }

/-! ## Operations (R457 to R459, Table 15.4) -/

/-- CFG_FW_CTRL.OP written: the code that answers it, and the state (R457). -/
def State.writeFwCtrl (s : State) (op : Nat) : Nat × State :=
  let f := s.fw
  let ok := match op with
    | 1 => !f.trial
    | 2 => (f.slot !f.active).st == 2
    | 3 => !f.trial
    | _ => false
  if !s.power.ready then (0x75, s)
  else if f.busy ≠ 0 ∨ !ok then (0x7E, s.fwReject 8)
  else if op = 1 then
    let s := s.modFw fun f => { f.modSlot (!f.active) fun _ => { st := 1 } with busy := 1, image := {}, got := 0 }
    (0, s.askPage 0xFF f.src 4096 (.firmware 0))
  else (0, s.modFw fun f => { f with busy := op })

/-- The slot being staged becomes INVALID with a detail, and the operation ends (R457, R460). -/
def State.stageFails (s : State) (detail : Nat) : State :=
  (s.modFw fun f => { f.modSlot (!f.active) fun x => { x with st := 3 } with busy := 0 }).fwReject detail

/-- The staged image has been written, unless a flash write failed, and is checked (R454, R457, R460). -/
def State.stageDone (s : State) (flashOk : Bool) : State :=
  let f := s.fw
  if f.busy ≠ 1 then s
  else if !flashOk then s.stageFails 5
  else
    let head := f.image.readN 0 4096
    if f.got < 4096 ∨ (imageForm (head ++ List.replicate (imageLen head - 4096) 0) ∧ f.got < imageLen head) then s
    else
      let b := f.image.readN 0 f.got
      match s.imageBad b with
      | some d => s.stageFails d
      | none => s.modFw fun f =>
          { f.modSlot (!f.active) fun _ => { st := 2, svn := leAt b 7 1, digest := sha3 b, image := f.image, len := f.got } with
            busy := 0 }

/-- FW_STAGE_COMPLETE (R457): `flashOk` is false after a flash write error. -/
def execFwStageComplete (flashOk : Bool) (s : State) : Answer := .next (s.stageDone flashOk)

/-- ACTIVATE or ARB_COMMIT has finished its writes (R457). -/
def State.fwDone (s : State) : State :=
  match s.fw.busy with
  | 2 => s.modFw fun f => { f with busy := 0, active := !f.active, trial := true, attempted := false }
  | 3 =>
    let other := 2 ^ (1 - s.fw.runKey)
    s.modFw fun f => { f with
      busy := 0, arb := max f.arb f.svnRun, revoke := if f.runRevoke then f.revoke ||| other else f.revoke }
  | _ => s

/-- FW_OPERATION_COMPLETE (R457). -/
def execFwOperationComplete (s : State) : Answer := .next s.fwDone

/-! ## Attestation (R461 to R463) -/

/-- One entry of a report. -/
def attEntry (type index st name ver : Nat) (digest : List Byte) : List Byte :=
  [toB type, toB index, toB st, 0] ++ leBytes 4 name ++ leBytes 8 ver ++ digest

/-- 32 zero bytes. -/
def noDigest : List Byte := List.replicate 32 0

/-- The entry of a firmware slot. -/
def FwSlot.entry (x : FwSlot) (type : Nat) : List Byte :=
  attEntry type 0 x.st 0 x.svn (if x.st = 2 then x.digest else noDigest)

/-- The entries of the 8 table slots of a core. -/
def State.tableEntries (s : State) (n : Nat) : List Byte :=
  (List.range 8).flatMap fun i =>
    let x := vget (s.core n).ve.slots i
    attEntry 5 i x.st n (if x.st = 2 then leAt x.bytes 0 4 else 0) (if x.st = 2 then sha3 x.bytes else noDigest)

/-- HANDLE, LENGTH and OFFSET of object entry `k` of a request. -/
def FwSt.attReq (f : FwSt) (k : Nat) : Nat × Nat × Nat :=
  (fld (vget f.attObj k) 63 32, fld (vget f.attObj k) 20 0, fld (vget f.attOff k) 39 0)

/-- The entry of an object. -/
def State.objEntryOf (s : State) (k : Nat) : List Byte :=
  let (h, len, off) := s.fw.attReq k
  match s.tongs.byHandle h with
  | none => []
  | some o => attEntry 6 0 0 h o.version (sha3 (o.cur.content.readN off len))

/-- Header and entries of a report, captured at the present edge (R462, R463, Table 15.5). -/
def State.capture (s : State) (tables : Bool) (core nobj : Nat) : List Byte :=
  let n := 4 + (if tables then 8 else 0) + nobj
  let flags := b2n s.cfg.defaulted + 2 * b2n s.cfg.stale + 4 * b2n s.fw.trial + 8 * b2n s.fw.reverted + 16 * b2n s.unpaired
  let gen := (s.cfg.active.map (·.gen)).getD 0
  let head := leBytes 2 1 ++ leBytes 2 n ++ leBytes 2 s.cfg.pkgId ++ [toB s.fw.arb, toB flags] ++ leBytes 8 s.now ++ leBytes 8 gen
    ++ (s.fw.nonce.toList.flatMap fun w => leBytes 8 w.toNat) ++ leBytes 8 0
  head ++ attEntry 1 0 0 0 s.fw.svnRun (padTo 32 s.fw.runDigest) ++ s.fw.slotA.entry 2 ++ s.fw.slotB.entry 3
    ++ attEntry 4 0 0 0 gen (match s.cfg.active with
      | some r => sha3 r.bytes
      | none => noDigest)
    ++ (if tables then s.tableEntries core else []) ++ (List.range nobj).flatMap s.objEntryOf

/-- An object entry names no object that can be measured (R461, detail 1). -/
def State.attObjBad (s : State) (k : Nat) : Bool :=
  let (h, len, off) := s.fw.attReq k
  match s.tongs.byHandle h with
  | none => true
  | some o => o.st == .lost || decide (o.size < off + len)

/-- A field of an object entry is invalid (R461, detail 4). -/
def FwSt.attFieldBad (f : FwSt) (k : Nat) : Bool :=
  let (_, len, off) := f.attReq k
  len % 16 != 0 || decide (len < 16) || decide (2 ^ 20 < len) || off % 64 != 0

/-- CFG_ATT_CTRL written: the code that answers it, and the state (R461). -/
def State.writeAttCtrl (s : State) (value : Nat) : Nat × State :=
  let nobj := bitsOf value 4 0
  let core := bitsOf value 39 32
  let tables := bitOf value 31
  let refuse := fun (d : Nat) =>
    (0x7F, (s.modFw fun f => { f with attState := 4, attDetail := d }).logEv { code := 0x7F, unit := 0xFA, sub := d })
  let ks := List.range (min nobj 16)
  if !bitOf value 63 then (0, s)
  else if s.fw.captured ≠ [] then refuse 3
  else if !s.power.ready then (0x75, s.modFw fun f => { f with attState := 4, attDetail := 0 })
  else if ks.any s.attObjBad then refuse 1
  else if tables ∧ (192 ≤ core ∨ s.retired core = true) then refuse 2
  else if 16 < nobj ∨ (ks.any s.fw.attFieldBad) = true then refuse 4
  else (0, s.modFw fun f => { f with attState := 1, attDetail := 0, captured := s.capture tables core nobj, report := [] })

/-- The digests and the hedged signature of a report are complete (R462, R463). -/
def State.attDone (s : State) : State :=
  if s.fw.captured = [] then s
  else
    let (k, s) := s.fresh
    let sig := (List.range 2420).map (Config.mldsaByte (k + 1) s.fw.captured)
    s.modFw fun f => { f with attState := 3, report := f.captured ++ sig, captured := [] }

/-- ATTEST_DONE (R463). -/
def execAttestDone (s : State) : Answer := .next s.attDone

end Sys2Proof.Machine
end

