-- ==== Sys2Proof/Machine/Boot.lean ====
section
/-!
DEFINITION. Configuration records, their staging and activation, and the steps of boot (R18 to R20, R434 to R447).
-/

namespace Sys2Proof.Machine

open Sys2Proof

/-! ## The record (Tables 14.7 to 14.9) -/

/-- The system section of a record. -/
def CfgRec.sys (r : CfgRec) : List Byte := (r.bytes.drop (leAt r.bytes 24 4)).take 8256
/-- The package section of a record. -/
def CfgRec.pkg (r : CfgRec) : List Byte := (r.bytes.drop (leAt r.bytes 32 4)).take 256

/-- Bytes `[i, j)` are zero. -/
def zeros (b : List Byte) (i j : Nat) : Bool := ((b.drop i).take (j - i)).all (· == 0)

/-- A record passes its CRC, FORMAT, lengths and reserved bytes (R443, R444). -/
def recordOk (b : List Byte) : Bool :=
  let r : CfgRec := { bytes := b }
  let so := leAt b 24 4
  let po := leAt b 32 4
  let crc := crc32c ((b.take 60 ++ leBytes 4 0 ++ b.drop 64).map (·.toNat))
  decide (64 ≤ b.length) && leAt b 0 2 == 1 && decide (leAt b 2 2 ≤ 1) && leAt b 4 4 == b.length && b.length % 8 == 0
    && decide (b.length ≤ 65536) && leAt b 28 4 == 8256 && leAt b 36 4 == 256 && decide (64 ≤ so)
    && decide (so + 8256 ≤ b.length) && decide (64 ≤ po) && decide (po + 256 ≤ b.length) && zeros b 40 60 && leAt b 60 4 == crc
    && zeros r.sys 6 64 && !bitOf (leAt r.sys 4 2) 14
    && decide (leAt r.pkg 0 2 < 2 ^ 14) && decide (leAt r.pkg 2 1 < 16) && decide (leAt r.pkg 3 1 < 4) && zeros r.pkg 5 6
    && !bitOf (leAt r.pkg 6 2) 14 && zeros r.pkg 11 16 && zeros r.pkg 24 32 && zeros r.pkg 160 256
    && (List.range 16).all fun p => bitsOf (leAt r.pkg (32 + 8 * p) 8) 61 17 == 0

/-- The record that bytes hold. -/
def recordOf (b : List Byte) : CfgRec :=
  { gen := leAt b 8 8, atReset := bitOf (leAt b 2 2) 0, actBeat := leAt b 16 8, bytes := b }

/-- The boot-class fields of a record. -/
def CfgRec.bootClass (r : CfgRec) : List Byte :=
  r.sys.take 3 ++ r.pkg.take 3 ++ (r.pkg.drop 6).take 2 ++ (r.pkg.drop 10).take 1 ++ (r.pkg.drop 16).take 8 ++ (r.pkg.drop 32).take 128

/-- The state with the configuration block changed. -/
def State.modCfg (s : State) (f : CfgSt → CfgSt) : State := { s with cfg := f s.cfg }

/-- The live-class registers of a record are loaded (Tables 14.8, 14.9, R42). The residue P is 0 at the root of mode 0b10
(R500). Such a root that its record names after its PLL has locked keeps its lock state until the PLL locks again, since
Table 2.3 has no other event for it (DESIGN CHOICE, assumption 37). -/
def State.loadLive (s : State) (r : CfgRec) : State :=
  let y := r.sys
  let k := r.pkg
  let root := leAt y 4 2
  let id := s.cfg.pkgId
  let nib := leAt y (64 + id / 2) 1
  let toRoot := bitOf root 15 && s.cfg.valid && bitsOf root 13 0 == id
  let s := s.modBeat fun b =>
    { b with
      maxSlips := if leAt y 3 1 = 0 then 16 else leAt y 3 1
      residue := if toRoot && b.mode == 2 then 0 else b.residue
      rootValid := bitOf root 15, root := toRoot
      srcPort := if id % 2 = 0 then nib % 16 else nib / 16 }
  let s := s.modPower fun p => { p with hostMode := leAt k 3 1 % 4, tWarn := leAt k 4 1 }
  s.modLid fun l => { l with nFlash := leAt k 8 1, nStore := leAt k 9 1 }

/-- The boot-class registers of a record are loaded. -/
def State.loadBoot (s : State) (r : CfgRec) : State :=
  let y := r.sys
  let k := r.pkg
  let s := s.modCfg fun c =>
    { c with na := leAt y 0 1 % 16, nb := leAt y 1 1 % 16, nc := leAt y 2 1 % 8, pkgId := leAt k 0 2 }
  let far := leAt k 2 1
  let s := s.modTongs fun t => { t with density := bitsOf far 3 2, ranks := bitOf far 1, rate := bitOf far 0 }
  s.modLid fun l =>
    { l with
      partner := leAt k 6 2 % 2 ^ 14, partnerValid := bitOf (leAt k 6 2) 15, slotGib := leAt k 10 1, firstLba := leAt k 16 8
      parts := vmapIdx l.parts fun p x =>
        let w := leAt k (32 + 8 * p) 8
        { x with native := bitOf w 63, align := bitOf w 62, slotUnits := bitsOf w 16 0 } }

/-- The check of R20: every coordinate is smaller than its ring size, and d is the tray slot. -/
def State.idOk (s : State) : Bool := !s.dstInvalid s.cfg.pkgId && coord s.cfg.pkgId 3 == s.power.traySlot

/-- CFG_PKG_ID.VALID is decided (R20): code 0x74 when the check fails. -/
def State.checkId (s : State) (some_ : Bool) : State :=
  if some_ ∧ s.idOk = true then s.modCfg fun c => { c with valid := true }
  else (s.modCfg fun c => { c with valid := false }).logEv { code := 0x74, unit := 0xF9 }

/-- The fingerprint of a record (R442). -/
def CfgRec.fp (r : CfgRec) : List Byte := sha3 r.sys

/-- A record is loaded at boot (R443). -/
def State.loadRecord (s : State) (r : CfgRec) : State :=
  let s := (s.loadBoot r).checkId true
  (s.loadLive r).modCfg fun c => { c with fp := r.fp, defaulted := false }

/-- The factory defaults (Table 14.10): code 0x70. -/
def State.loadDefaults (s : State) : State :=
  let s := (s.modCfg fun c => { c with defaulted := true, fp := List.replicate 32 0 }).modTongs fun t => { t with density := 3 }
  (s.logEv { code := 0x70, unit := 0xF9 }).checkId false

/-- Step 3 of boot: the record that is active from now on is loaded (R443, R444). -/
def State.bootRecord (s : State) : State :=
  let s := match s.cfg.staged with
    | some r => if r.atReset then s.modCfg fun c => { c with active := some r, staged := none, stage := 0 } else s
    | none => s
  match s.cfg.active with
  | some r => if recordOk r.bytes then s.loadRecord r else s.loadDefaults
  | none => s.loadDefaults

/-! ## Staging and activation (R444 to R447) -/

/-- Why a record is refused (R444). -/
def State.recordBad (s : State) (b : List Byte) : Option Nat :=
  let r := recordOf b
  let above := fun (x : Option CfgRec) => x.all fun y => decide (y.gen < r.gen)
  if !recordOk b then some 1
  else if !above s.cfg.active ∨ !above s.cfg.staged then some 2
  else if !r.atReset ∧ s.cfg.valid = true ∧ (s.cfg.active.any fun a => a.bootClass != r.bootClass) = true then some 3
  else if !r.atReset ∧ r.gen = s.cfg.actGen ∧ r.actBeat ≠ s.cfg.actBeat then some 4
  else none

/-- CFG_STAGE_CTRL written (R444). -/
def State.writeStageCtrl (s : State) (value : Nat) : State :=
  if !bitOf value 63 then s
  else
    let b := s.cfg.stageData.readN 0 (min (bitsOf value 16 0) 65536)
    match s.recordBad b with
    | some d => (s.modCfg fun c => { c with stage := 4, writing := none }).logEv { code := 0x73, unit := 0xF9, sub := d }
    | none => s.modCfg fun c => { c with stage := 2, writing := some (recordOf b) }

/-- The announcement of a generation (R445): one not above the active GEN is ignored. -/
def State.announceGen (s : State) (gen : Nat) : State :=
  s.modCfg fun c => { c with
    actGen := gen
    armed := if c.active.any fun a => decide (gen ≤ a.gen) then c.armed else true }

/-- A checked record is in the flash: STAGED, and announced unless it waits for a reset (R444, R445). -/
def State.stageWritten (s : State) : State :=
  match s.cfg.writing with
  | none => s
  | some r =>
    let s := s.modCfg fun c => { c with writing := none, staged := some r, stage := 3 }
    if r.atReset then s else (s.modCfg fun c => { c with actBeat := r.actBeat }).announceGen r.gen

/-- CFG_STAGE_WRITTEN (R444). -/
def execCfgStageWritten (s : State) : Answer := .next s.stageWritten

/-- A record becomes active at the present edge (R446). While the package ID is not valid, the boot-class registers are
loaded too, and the ports train once it is (R20). -/
def State.activate (s : State) (r : CfgRec) : State :=
  let was := s.cfg.valid
  let s := if was then s else (s.loadBoot r).checkId true
  let s := (s.loadLive r).modCfg fun c =>
    { c with
      prevFp := c.fp, prevFpBeat := s.now, fp := r.fp, active := some r, staged := none, stage := 0, stale := false
      defaulted := false, staleLogged := false, armed := c.armed && decide (r.gen < c.actGen) }
  let s := s.logEv { code := 0x8A, unit := 0xF9, extra := r.gen }
  let s := if was ∨ !s.cfg.valid then s
    else (List.range 16).foldl (fun s p => if s.portOn p ∧ (s.port p).st = .disabled then s.train p else s) s
  (if s.lid.st = .refused then s.modLid fun l => { l with st := .unpaired } else s).sendPair

/-- The announced beat comes and no record of its generation is staged: CONFIG_STALE (R447). -/
def State.goStale (s : State) : State :=
  let s := s.toBeat s.cfg.actBeat
  if s.now < s.cfg.actBeat then s
  else
    let s := if s.cfg.staleLogged then s else s.logEv { code := 0x71, unit := 0xF9 }
    s.modCfg fun c => { c with stale := true, staleLogged := true, armed := false }

/-- CFG_ACTIVATED (R446, R447): the clock runs to the activation beat, or to the next edge when that has passed. -/
def State.activation (s : State) : State :=
  if !s.power.ready then s
  else match s.cfg.staged with
    | none => if s.cfg.armed then s.goStale else s
    | some r =>
      if r.atReset ∨ (s.cfg.armed ∧ s.cfg.actGen ≠ r.gen ∧ s.cfg.actBeat < r.actBeat) then
        if s.cfg.armed ∧ s.cfg.actGen ≠ r.gen then s.goStale else s
      else
        let s' := if !s.cfg.valid ∨ r.actBeat ≤ s.now then s.tick else s.toBeat r.actBeat
        if s.cfg.valid ∧ s'.now < r.actBeat then s' else s'.activate r

/-- CFG_ACTIVATED (R446). -/
def execCfgActivated (s : State) : Answer := .next s.activation

/-! ## The boot ROM: steps 1 and 2 (R439, R454, R458) -/

/-- The boot stops at its step (R439). -/
def State.bootFails (s : State) : State := s.modPower fun p => { p with failed := true, failEdge := s.edge }

/-- The slot pointer at the start of a boot from the flash (R456, R458). -/
def FwSt.atBoot (f : FwSt) (fromFlash : Bool) : FwSt :=
  let tidy := fun (x : FwSlot) => if x.st = 1 then {} else x
  let f := { f with slotA := tidy f.slotA, slotB := tidy f.slotB }
  if !fromFlash ∨ !f.trial then f
  else if !f.attempted then { f with attempted := true }
  else { f with active := !f.active, trial := false, attempted := false, reverted := true, revertLog := true }

/-- Step 1 has loaded the image (R438, R439). -/
def State.bootLoaded (s : State) (i : BootInfo) : State :=
  if s.beat.lock = .unlocked then s
  else if !i.ok then s.bootFails
  else
    let fromFlash := s.power.bootSrc == 1
    let s := s.modFw fun f => f.atBoot fromFlash
    match s.power.bootSrc with
    | 1 =>
      let x := s.fw.slot s.fw.active
      (s.modFw fun f => { f with image := x.image, got := x.len }).modPower fun p => { p with stage := 2 }
    | 2 => (s.modFw fun f => { f with image := Mem.zero.writeN 0 i.image, got := i.image.length }).modPower fun p => { p with stage := 2 }
    | _ =>
      if s.fw.got < 4096 ∨ s.fw.got < imageLen (s.fw.image.readN 0 4096) then s
      else s.modPower fun p => { p with stage := 2 }

/-- The image runs: step 3 begins. -/
def State.bootRuns (s : State) (b : List Byte) : State :=
  (s.modFw fun f =>
    { f with svnRun := leAt b 7 1, runKey := leAt b 6 1, runRevoke := bitOf (leAt b 20 1) 0, runDigest := sha3 b }).modPower
      fun p => { p with stage := 3 }

/-- Step 2 checks the image; a slot that fails is tried once on the other slot (R454, R455, R458). The slot pointer stays: R456 moves
it by ACTIVATE and by a reverted trial only (DEDUCED, assumption 25). -/
def State.bootChecked (s : State) : State :=
  let b := s.fw.image.readN 0 s.fw.got
  match s.imageBad b with
  | none => s.bootRuns b
  | some d =>
    let s := s.modFw fun f => { f with lastReject := d }
    if s.power.bootSrc ≠ 1 then s.bootFails
    else
      let x := s.fw.slot !s.fw.active
      let b := x.image.readN 0 x.len
      match s.imageBad b with
      | none => s.bootRuns b
      | some d => (s.modFw fun f => { f with lastReject := d }).bootFails

/-! ## Step 4 (R277, R385, R434, R438) -/

/-- A C-die's bring-up ends: ACTIVE, or left in RESET with code 0x8C (R438). -/
def State.bringUp (s : State) (i : BootInfo) (d : Nat) : State :=
  if i.failedDies.contains d then
    (s.modDie d fun x => { x with st := .reset, failed := true }).logEv { code := 0x8C, die := d, unit := 0xF8, inst := d }
  else s.releaseDie d

/-- Far memory is trained, and the reserve for the partner is taken from it (R277, R385). -/
def State.bringFar (s : State) (i : BootInfo) : State :=
  let t := i.trained % 2 ^ 24
  let present := decide (16 ≤ popc t 24) && s.tongs.density != 3
  let s := s.modTongs fun x => { x with trained := t, farPresent := present }
  let s := if present then s else s.logEv { code := 0x55, unit := 0xF5 }
  let want := 2 ^ 21 + 2 * s.lid.slotGib * 2 ^ 30
  let cap := popc t 24 * 2 ^ (33 + s.tongs.density)
  if s.lid.partnerValid ∧ present = true ∧ 2 * want ≤ cap then s.modTongs fun x => { x with reserve := want } else s

/-- Objects of a compatibility partition are LOST; those of a native one leave with the home table (R387, R434). -/
def State.emptyTable (s : State) : List Obj :=
  (s.tongs.objs.filter fun o => !(s.lp o.part).native).map fun o =>
    { o with st := .lost, stagedBy := [], cur := { o.cur with wheres := [], charge := 0, pooled := false, content := Mem.zero } }

/-- Local state is lost (R434): stacks and far memory are zeroed, the home table is emptied, the journal has to come from
the partner, and partitions take their paths of Table 13.9. -/
def State.loseState (s : State) : State :=
  let objs := s.emptyTable
  let s : State := { s with
    regions := vmap s.regions fun g => { g with used := [] }
    tongs := { s.tongs with
      objs := objs, gens := objs.map fun o => (o.idx, o.gen)
      farUsed := [], mapsUsed := [], releases := [], quotas := vmap s.tongs.quotas fun v => vmap v fun q => { q with used := 0 } }
    cmd := { s.cmd with
      journal := [], partnerJrnl := [], partnerDec := []
      cmds := s.cmd.cmds.map fun c => { c with objs := c.objs.map fun u => { u with staged := none } } }
    lid := { s.lid with heldSlots := [], heldPtr := [] } }
  (List.range 16).foldl (fun s p => if (s.lp p).native then s.stateLost p else s) s

/-- The balls that the firmware drives in step 4 (R471): each LPc_RESET_N low for 200 µs before its channel trains, when local state
is lost; PCIE_PERST_N high. -/
def State.driveBalls (s : State) : State :=
  let low := if s.power.stateKept ∨ s.tongs.density = 3 then [] else (List.range 24).map fun c => OutItem.lpReset c 200
  State.modPower { s with outbox := s.outbox ++ low } fun p => { p with perst := true }

/-- Step 4 ends (R434, R435, R438): local state that is not kept is lost. -/
def State.bootTrained (s : State) (i : BootInfo) : State :=
  let s := s.driveBalls
  let s := (List.range 4).foldl (fun s d => s.bringUp i d) s
  let s := s.bringFar i
  let s := s.modTongs fun t => { t with tiersUp := true, pressReady := true }
  let s := s.modLid fun l => { l with
    flashOk := i.flashOk && i.pcieWidth != 0, nvmeReady := i.flashOk && i.pcieWidth != 0
    pcieWidth := i.pcieWidth, pcieRate := i.pcieRate, pcieFlit := i.pcieWidth != 0, pcieState := if i.pcieWidth = 0 then 3 else 2 }
  let s := if s.lid.nFlash ≠ 0 ∧ !s.lid.flashOk then s.logEv { code := 0x78, unit := 0xF3, sub := 4 } else s
  let s := (List.range 17).foldl (fun s p => if s.portOn p ∧ (s.port p).st = .disabled then s.train p else s) s
  let s := s.modPower fun p => { p with stage := 5 }
  if s.power.stateKept then s else s.loseState

/-! ## Steps 5 and 6 (R305, R438, R458) -/

/-- The full BIST ends: rows still recorded have been tested, and lasting faults retire their structures (R305, R438). -/
def State.bootTested (s : State) (i : BootInfo) : State :=
  let rows := s.integ.flashRows.map fun x => TestLoc.row x.1 x.2.1 x.2.2
  let s := rows.foldl (fun s l => if i.faults.contains l then s else s.settleTest l true) s
  i.faults.foldl (fun s l => s.settleTest l false) s

/-- READY (R438, R458). -/
def State.bootReady (s : State) : State :=
  let s := s.modPower fun p => { p with stage := 6, ready := true }
  let s := s.modFw fun f => { f with trial := false, attempted := false, image := {}, got := 0 }
  (s.logEv { code := 0x89, unit := 0xF8 }).sendPair

/-- A boot step completes, or stops the boot. -/
def State.bootStep (s : State) (i : BootInfo) : State :=
  if s.power.inReset ∨ s.power.failed ∨ s.power.ready then s
  else
    let s := s.modPower fun p => { p with bootMs := i.ms }
    match s.power.stage with
    | 1 => s.bootLoaded i
    | 2 => s.bootChecked
    | 3 =>
      let s := s.bootRecord
      let s := if s.fw.revertLog then (s.modFw fun f => { f with revertLog := false }).fwReject 7 else s
      { s with
        dies := vmap s.dies fun d => { d with st := .bringup }
        power := { s.power with stage := 4 } }
    | 4 => s.bootTrained i
    | _ => (s.bootTested i).bootReady

/-- BOOT_STEP_DONE (R438). -/
def execBootStepDone (i : BootInfo) (s : State) : Answer := .next (s.bootStep i)

/-- A stopped boot tries the same source again, 2^25 beats after it stopped (R439). -/
def State.bootAgain (s : State) : State :=
  let s := s.toEdge (s.power.failEdge + 2 ^ 25)
  if s.edge < s.power.failEdge + 2 ^ 25 then s
  else ((s.modPower fun p => { p with failed := false, stage := 1 }).modFw fun f => { f with image := {}, got := 0 }).bootAsk

/-- BOOT_RETRY (R439): the clock runs to the next try. -/
def execBootRetry (s : State) : Answer := .next (if s.power.failed then s.bootAgain else s)

/-! ## The PCIe root port (R422) -/

/-- PCIE_PORT_RETRAINED (R422): with the lanes and the PCIe generation that it trained to, and whether the namespace
serves the flash area. -/
def execPciePortRetrained (width rate : Nat) (flashOk : Bool) (s : State) : Answer :=
  let ok := width == 1 || width == 2 || width == 4
  .next (s.modLid fun l =>
    if ok then { l with
      pcieState := 2, pcieWidth := width, pcieRate := rate, pcieFlit := true, nvmeReady := flashOk, flashOk := flashOk }
    else { l with pcieState := 3, pcieWidth := 0, pcieRate := 0, pcieFlit := false, nvmeReady := false, flashOk := false })

end Sys2Proof.Machine
end

