-- ==== Sys2Proof/Machine/Counters.lean ====
section
/-!
DEFINITION. Clearing the counters by banks (R485 to R488).
-/

namespace Sys2Proof.Machine

open Sys2Proof

/-! ## Banks (Table 17.1) -/

/-- All counters of a bank at 0. -/
def zeroBank (n : Nat) : Vector Nat n := Vector.replicate n 0

/-- Bank 0x0 of one core. -/
def CoreSt.clearCounters (c : CoreSt) : CoreSt :=
  { c with
    seqCnt := zeroBank 16, sklCnt := zeroBank 8, xchCnt := zeroBank 16
    me := { c.me with cnt := zeroBank 16 }, ve := { c.ve with cnt := zeroBank 16 }
    sm := { c.sm with ldlCnt := zeroBank 16, colCnt := zeroBank 16 }
    stalls := Vector.replicate 5 (zeroBank 16), seqCycles := 0 }

/-- Bank 0x2 of one port. The windows that R322 evaluates are kept (R488). -/
def Port.clearCounters (p : Port) : Port :=
  { p with cnt := zeroBank 16, corrected := zeroBank 8, attrib := zeroBank 8 }

/-- One bank other than 0xF is cleared for a target. -/
def State.clearBank (s : State) (bank target : Nat) : State :=
  match bank with
  | 0x0 => s.modCore target CoreSt.clearCounters
  | 0x1 => s.modRegion target fun g => { g with cnt := zeroBank 16 }
  | 0x2 => s.modPort target Port.clearCounters
  | 0x3 => s.modCmdU fun u => { u with cli := vset u.cli target (zeroBank 16) }
  | 0x4 => s.modBeat fun b => { b with cnt := zeroBank 32 }
  | 0x5 => s.modTongs fun t => { t with cnt := zeroBank 32 }
  | 0x6 => s.modInteg fun i => { i with icnt := zeroBank 32 }
  | 0x7 => s.modCmdU fun u => { u with cnt := zeroBank 16 }
  | 0x8 => s.modLid fun l => { l with cnt := zeroBank 16 }
  | 0x9 => s.modPower fun p => { p with cnt := zeroBank 16 }
  | 0xA => { s with log := { s.log with codeCnt := zeroBank 256, suppressed := 0, overwritten := 0 } }
  | _ => s

/-- Every bank, for every target. -/
def State.clearAll (s : State) : State :=
  let s : State := { s with
    cores := vmap s.cores CoreSt.clearCounters
    regions := vmap s.regions fun g => { g with cnt := zeroBank 16 }
    ports := vmap s.ports Port.clearCounters }
  let s := s.modCmdU fun u => { u with cli := Vector.replicate 64 (zeroBank 16) }
  [4, 5, 6, 7, 8, 9, 10].foldl (fun s b => s.clearBank b 0) s

/-- Targets of a bank; 0 for a bank that Table 17.1 does not list. -/
def bankTargets (bank : Nat) : Nat :=
  match bank with
  | 0x0 => 192
  | 0x1 => 16
  | 0x2 => 17
  | 0x3 => 64
  | 0x4 | 0x5 | 0x6 | 0x7 | 0x8 | 0x9 | 0xA | 0xF => 1
  | _ => 0

/-! ## Requests (R486, R487) -/

/-- A clear of a bank and a target. -/
def ClearReq.names (c : ClearReq) (bank target : Nat) : Bool := c.bank == bank && c.target == target

/-- HLT_CLR written: the code that answers it, and the state. -/
def State.writeClr (s : State) (value : Nat) : Nat × State :=
  let bank := bitsOf value 15 12
  let target := bitsOf value 7 0
  let at_ := s.log.clrAt.toNat
  let others := s.log.clears.filter fun c => !c.names bank target
  if !bitOf value 63 then (0, s)
  else if bankTargets bank ≤ target then (0x1F, s)
  else if bank = 0 ∧ s.retired target = true then (0x13, s)
  else if 16 ≤ others.length then (0x1F, s)
  else
    let c : ClearReq := { bank := bank, target := target, at_ := if s.now < at_ then some at_ else none, edge := s.edge }
    (0, { s with log := { s.log with clears := others ++ [c] } })

/-- The edge of a waiting clear comes: the clock runs to it, the counters read 0 and HLT_CLR_LAST names the edge. -/
def State.counterClear (s : State) (bank target : Nat) : State :=
  match s.log.clears.find? fun c => c.names bank target with
  | none => s
  | some c =>
    let s := match c.at_ with
      | some b => s.toBeat b
      | none => s.toEdge (c.edge + 1)
    let due := match c.at_ with
      | some b => decide (b ≤ s.now)
      | none => decide (c.edge < s.edge)
    if !due then s
    else
      let s : State := { s with log := { s.log with
        clears := s.log.clears.filter fun c => !c.names bank target, clrLast := s.now } }
      if bank = 0xF then s.clearAll else s.clearBank bank target

/-- COUNTER_CLEAR (R486): of the waiting clear of a bank and a target. -/
def execCounterClear (bank target : Nat) (s : State) : Answer := .next (s.counterClear bank target)

end Sys2Proof.Machine
end

