-- ==== Sys2Proof/Machine/Sideband.lean ====
section
/-!
DEFINITION. The management sideband: an I3C target that reads telemetry and writes one cap (R481 to R483).
-/

namespace Sys2Proof.Machine

open Sys2Proof

/-- The static address (R481): the slot of the strap balls during reset, and of PWR_STRAPS afterwards. -/
def State.sideStatic (s : State) : Nat := 0x48 + (if s.power.inReset then s.power.ballSlot else s.power.traySlot)

/-- The target answers an address: its dynamic one once it has one, its static one before (R481). It is silent while
VDD_AUX lies below its reset threshold. -/
def State.sideHears (s : State) (addr : Nat) : Bool :=
  (vget s.power.rails 10).st != 2 && addr == s.side.dynamic.getD s.sideStatic

/-- ALERT_N is asserted: PWR_STATUS [9:6] holds a 1 (Table 14.12). -/
def PowerSt.alert (p : PowerSt) : Bool := p.capUnmet || p.thermWarn || p.degraded || p.brown

/-- A boot step has completed since the last release. -/
def State.pastStep (s : State) (k : Nat) : Bool := !s.power.inReset && decide (k < s.power.stage)

/-- PWR_STRAPS[12:0] from its fields. -/
def strapBits (rsv : Bool) (boot clk feed slot : Nat) : Nat :=
  4096 * b2n rsv + 1024 * boot + 256 * clk + 16 * feed + slot

/-- PWR_STRAPS as sampled. -/
def PowerSt.straps (p : PowerSt) : Nat := strapBits p.bootRsv p.bootSrc p.clkMode p.feedId p.traySlot

/-- DUTY_MIN (Table 14.12). -/
def State.dutyMin (s : State) : Nat := minL 16 (s.dies.toList.map DieSt.duty) - 1

/-- Byte `k` of a little-endian number. -/
def byteOf (v k : Nat) : Byte := toB (v / 256 ^ k)

/-- Byte at an offset of the sideband map (Table 16.10). -/
def State.sideByte (s : State) (o : Nat) : Byte :=
  let p := s.power
  if o = 0 then
    toB (b2n p.inReset + 2 * b2n (p.ready && !p.inReset) + 4 * b2n s.side.ignored + 8 * b2n p.thermTrip + 16 * b2n p.alert)
  else if o = 1 then 1
  else if o = 2 ∨ o = 3 then
    if s.pastStep 3 then byteOf (s.cfg.pkgId + 2 ^ 15 * b2n s.cfg.valid) (o - 2) else 0
  else if o = 4 ∨ o = 5 then
    byteOf (if p.inReset then strapBits false p.ballBoot p.ballClk p.ballFeed p.ballSlot else p.straps) (o - 4)
  else if 0x08 ≤ o ∧ o < 0x18 then if s.pastStep 1 then deviceId.getD (o - 8) 0 else 0
  else if 0x18 ≤ o ∧ o < 0x28 then partNumber.getD (o - 0x18) 0
  else if 0x28 ≤ o ∧ o < 0x3E then byteOf (s.railTarget ((o - 0x28) / 2)) (o % 2)
  else if 0x40 ≤ o ∧ o < 0x56 then byteOf (vget p.rails ((o - 0x40) / 2)).volt (o % 2)
  else if o = 0x58 ∨ o = 0x59 then if p.ready ∧ !p.inReset then byteOf p.watts (o - 0x58) else 0
  else if 0x5A ≤ o ∧ o < 0x5F then if s.pastStep 1 then toB (vget p.tmax (o - 0x5A)) else 0
  else if o = 0x60 then if s.pastStep 1 then toB (p.capInForce + 4 * s.dutyMin) else 0
  else if o = 0x61 then toB p.trayMode
  else if o = 0x62 then toB (p.stage + 8 * b2n p.failed + 16 * p.cause)
  else 0

/-- TRAY_MODE is written (R483), where 3 acts as 2; it takes effect at the next governor period (R423). -/
def State.writeTray (s : State) (v : Nat) : State := s.modPower fun p => { p with trayMode := v % 4 }

/-- One byte of a private write. -/
def State.sidePut (s : State) (o : Nat) (b : Byte) : State :=
  if o = 0x61 then s.writeTray b.toNat else { s with side := { s.side with ignored := true } }

/-- A private write: the offset, and bytes from it upward (R482, R483). -/
def State.sideWrite (s : State) (off : Nat) (data : List Byte) : State :=
  let s := data.zipIdx.foldl (fun (s : State) (x : Byte × Nat) => s.sidePut ((off + x.2) % 256) x.1) s
  { s with side := { s.side with ptr := (off + data.length) % 256 } }

/-- SIDEBAND_WRITE (R482): to a target address, an offset and the bytes after it. -/
def execSidebandWrite (addr off : Nat) (data : List Byte) (s : State) : Answer :=
  if s.sideHears addr then .next (s.sideWrite (off % 256) data) else .next s

/-- A private read of `n` bytes: WRITE_IGNORED is cleared by a read of offset 0 (R482, Table 16.10). -/
def State.sideRead (s : State) (n : Nat) : State :=
  let os := (List.range n).map fun i => (s.side.ptr + i) % 256
  { s with
    outbox := s.outbox ++ [OutItem.side (os.map s.sideByte)]
    side := { s.side with ptr := (s.side.ptr + n) % 256, ignored := s.side.ignored && !os.contains 0 } }

/-- SIDEBAND_READ (R482): of `n` bytes. -/
def execSidebandRead (addr n : Nat) (s : State) : Answer :=
  if s.sideHears addr then .next (s.sideRead n) else .next s

/-- TRAY_MODE_WRITE (R483): the private write of a byte to offset 0x61. -/
def execTrayModeWrite (addr value : Nat) (s : State) : Answer :=
  if s.sideHears addr then .next (s.sideWrite 0x61 [toB value]) else .next s

/-- SETDASA (R481): a dynamic address for the target with a static address. -/
def execSetdasa (static dynamic : Nat) (s : State) : Answer :=
  if static = s.sideStatic ∧ s.side.dynamic = none ∧ (vget s.power.rails 10).st ≠ 2 then
    .next { s with side := { s.side with dynamic := some (dynamic % 128) } }
  else .next s

end Sys2Proof.Machine
end

