-- ==== Sys2Proof/Machine/Registers.lean ====
section
/-!
DEFINITION. The registers of control space: their map (Tables 1.7 and 1.3) and what a read of each returns.
-/

namespace Sys2Proof.Machine

open Sys2Proof

/-! ## The registers -/

/-- A register of a core block (Tables 3.14 to 3.19, 4.9 to 4.14, 5.17, 5.18, 6.11 to 6.14, 7.10 to 7.15, 17.2, 17.4). -/
inductive CoreReg where
  | seqStatus | seqBeatBase | seqWdog | seqFault | seqCnt (k : Nat) | sklCnt (k : Nat)
  | meStatus | meCnt (k : Nat)
  | veStatus | veSeed | veFt (k : Nat) | veCnt (k : Nat)
  | ldlStatus | ldlReg (t : Nat) | ldlCnt (k : Nat)
  | colStatus | colCnt (k : Nat)
  | xchEpoch | xchWin (k : Nat) | xchCnt (k : Nat)
  /-- Index `c` of engine `q` − 1. -/
  | stall (q c : Nat) | seqCycles
deriving DecidableEq, Repr, Inhabited

/-- A register of a port block (Tables 11.15 to 11.22). -/
inductive PortReg where
  | status | ctrl | neigh | lat | fpRx | lane (l : Nat) | cnt (k : Nat)
deriving DecidableEq, Repr, Inhabited

/-- A register of control space. -/
inductive Csr where
  | cfgPkgId | cfgTorusDim | cfgDieStatus | cfgCoreMap (k : Nat)
  | cfgStatus | cfgFp (i : Nat) | cfgStageCtrl | cfgActBeat | cfgActGen | cfgStageData (j : Nat)
  | cfgDevid (i : Nat) | cfgAttNonce (i : Nat) | cfgAttCtrl | cfgAttStatus | cfgAttObj (k : Nat) | cfgAttOff (k : Nat)
  | cfgFwStatus | cfgFwSrc | cfgFwCtrl | cfgIdPub (j : Nat) | cfgCert (j : Nat) | cfgAttData (j : Nat)
  | pwrStatus | pwrCap | pwrStraps | pwrBoot | pwrRail (r : Nat) | pwrTherm (d : Nat) | pwrCnt (k : Nat) | rstReq | rstStatus
  | beatStatus | beatCount | beatCtrl | beatSeed | beatHold | beatCnt (k : Nat)
  | hltLogStatus | hltLogNext | hltLogCtrl | hltLog (j : Nat) | hltEvtMask (i : Nat)
  | hltClrAt | hltClr | hltClrStatus | hltClrLast | hltCodeCnt (c : Nat)
  | hltBistCtrl | hltBistWin | hltBistLen | hltBistResv (w : Nat) | hltIcnt (k : Nat)
  | lidStatus | lidCfg | lidFlash | lidCtrl | lidRisk | lidRiskCtrl | lidRiskW | lidStoreAddr | lidStoreAck
  | lidRestoreCtrl | lidRestorePoint | lidRestoreStart
  | lidPartCtrl (p : Nat) | lidPartStat (p : Nat) | lidPartMark (p : Nat) | lidPartFreeze (p : Nat) | lidCnt (k : Nat)
  | tngStatus | tngCtrl | tngTier (t : Nat) | tngQuota (c t : Nat) | tngCnt (k : Nat)
  | cmdStatus | cmdAcceptNo | cmdCtrl | cmdClient (c : Nat) | cmdPartCtrl (p : Nat) | cmdPartCores (p w : Nat)
  | cmdCnt (k : Nat) | cmdCli (c k : Nat)
  | farCfg | farStatus | pressStatus | pcieStatus
  | port (p : Nat) (r : PortReg)
  | core (n : Nat) (r : CoreReg)
  | rgnStatus (r : Nat) | rgnCnt (r k : Nat)
deriving DecidableEq, Repr, Inhabited

/-! ## The map -/

/-- `count` registers from `base` on, `stride` bytes apart. -/
structure RegRow (α : Type) where
  base : Nat
  stride : Nat
  count : Nat
  reg : Nat → α

/-- One register at an offset. -/
def one {α : Type} (base : Nat) (r : α) : RegRow α := ⟨base, 8, 1, fun _ => r⟩

/-- The register of a row at an offset. -/
def RegRow.at {α : Type} (w : RegRow α) (off : Nat) : Option α :=
  if w.base ≤ off ∧ (off - w.base) % w.stride = 0 ∧ (off - w.base) / w.stride < w.count then
    some (w.reg ((off - w.base) / w.stride))
  else none

/-- The register of the first row that has one at an offset. -/
def regAt {α : Type} (rows : List (RegRow α)) (off : Nat) : Option α := rows.findSome? fun w => w.at off

/-- Configuration and identity. -/
def cfgRows : List (RegRow Csr) :=
  [one 0x100 .cfgPkgId, one 0x108 .cfgTorusDim, one 0x110 .cfgDieStatus, ⟨0x200, 8, 16, .cfgCoreMap⟩,
   one 0x300 .cfgStatus, ⟨0x320, 8, 4, .cfgFp⟩, one 0x340 .cfgStageCtrl, one 0x348 .cfgActBeat, one 0x350 .cfgActGen,
   ⟨0x400, 8, 2, .cfgDevid⟩, ⟨0x420, 8, 4, .cfgAttNonce⟩, one 0x440 .cfgAttCtrl, one 0x448 .cfgAttStatus,
   ⟨0x500, 16, 16, .cfgAttObj⟩, ⟨0x508, 16, 16, .cfgAttOff⟩,
   one 0x600 .cfgFwStatus, one 0x608 .cfgFwSrc, one 0x610 .cfgFwCtrl,
   ⟨0x1000, 8, 164, .cfgIdPub⟩, ⟨0x2000, 8, 512, .cfgCert⟩, ⟨0x3000, 8, 512, .cfgAttData⟩, ⟨0x80000, 8, 8192, .cfgStageData⟩]

/-- Power and reset. -/
def pwrRows : List (RegRow Csr) :=
  [one 0x0 .pwrStatus, one 0x8 .pwrCap, one 0x10 .pwrStraps, one 0x18 .pwrBoot, ⟨0x100, 8, 11, .pwrRail⟩, ⟨0x200, 8, 5, .pwrTherm⟩,
   ⟨0x400, 8, 16, .pwrCnt⟩, one 0x8000 .rstReq, one 0x8008 .rstStatus]

/-- The beat unit. -/
def beatRows : List (RegRow Csr) :=
  [one 0x0 .beatStatus, one 0x8 .beatCount, one 0x10 .beatCtrl, one 0x18 .beatSeed, one 0x20 .beatHold, ⟨0x100, 8, 32, .beatCnt⟩]

/-- Health and integrity logs. -/
def hltRows : List (RegRow Csr) :=
  [one 0x0 .hltLogStatus, one 0x8 .hltLogNext, one 0x10 .hltLogCtrl, ⟨0x40, 8, 4, .hltEvtMask⟩, one 0x60 .hltClrAt, one 0x68 .hltClr,
   one 0x70 .hltClrStatus, one 0x78 .hltClrLast, one 0x1000 .hltBistCtrl, one 0x1008 .hltBistWin, one 0x1010 .hltBistLen,
   ⟨0x1018, 8, 3, .hltBistResv⟩, ⟨0x1100, 8, 32, .hltIcnt⟩, ⟨0x2000, 8, 256, .hltCodeCnt⟩, ⟨0x40000, 8, 32768, .hltLog⟩]

/-- The securing engine. -/
def lidRows : List (RegRow Csr) :=
  [one 0x0 .lidStatus, one 0x8 .lidCfg, one 0x10 .lidFlash, one 0x18 .lidCtrl, one 0x20 .lidRisk, one 0x28 .lidRiskCtrl,
   one 0x30 .lidRiskW, one 0x38 .lidStoreAddr, one 0x40 .lidStoreAck, one 0x48 .lidRestoreCtrl, one 0x50 .lidRestorePoint,
   one 0x58 .lidRestoreStart, ⟨0x100, 8, 16, .lidCnt⟩, ⟨0x200, 32, 16, .lidPartCtrl⟩, ⟨0x208, 32, 16, .lidPartStat⟩,
   ⟨0x210, 32, 16, .lidPartMark⟩, ⟨0x218, 32, 16, .lidPartFreeze⟩]

/-- Tiers and quotas. -/
def tngRows : List (RegRow Csr) :=
  [one 0x0 .tngStatus, one 0x8 .tngCtrl, ⟨0x10, 8, 3, .tngTier⟩, ⟨0x100, 8, 32, .tngCnt⟩, ⟨0x1000, 32, 64, fun c => .tngQuota c 0⟩,
   ⟨0x1008, 32, 64, fun c => .tngQuota c 1⟩, ⟨0x1010, 32, 64, fun c => .tngQuota c 2⟩]

/-- Partitions, clients and the journal. -/
def cmdRows : List (RegRow Csr) :=
  [one 0x0 .cmdStatus, one 0x8 .cmdAcceptNo, one 0x10 .cmdCtrl, ⟨0x100, 8, 64, .cmdClient⟩, ⟨0x400, 32, 16, .cmdPartCtrl⟩,
   ⟨0x408, 32, 16, fun p => .cmdPartCores p 0⟩, ⟨0x410, 32, 16, fun p => .cmdPartCores p 1⟩,
   ⟨0x418, 32, 16, fun p => .cmdPartCores p 2⟩, ⟨0x800, 8, 16, .cmdCnt⟩, ⟨0x1000, 8, 1024, fun i => .cmdCli (i / 16) (i % 16)⟩]

/-- A port block. -/
def portRows : List (RegRow PortReg) :=
  [one 0x0 .status, one 0x8 .ctrl, one 0x10 .neigh, one 0x18 .lat, one 0x20 .fpRx, ⟨0x100, 8, 8, .lane⟩, ⟨0x200, 8, 16, .cnt⟩]

/-- A core block. -/
def coreRows : List (RegRow CoreReg) :=
  [one 0x0 .seqStatus, one 0x8 .seqBeatBase, one 0x10 .seqWdog, one 0x18 .seqFault, ⟨0x100, 8, 16, .seqCnt⟩, ⟨0x1000, 8, 8, .sklCnt⟩,
   one 0x2000 .meStatus, ⟨0x2100, 8, 16, .meCnt⟩,
   one 0x4000 .veStatus, one 0x4008 .veSeed, ⟨0x4100, 8, 8, .veFt⟩, ⟨0x4200, 8, 16, .veCnt⟩,
   one 0x6000 .ldlStatus, ⟨0x6010, 8, 3, .ldlReg⟩, ⟨0x6100, 8, 16, .ldlCnt⟩,
   one 0x8000 .colStatus, ⟨0x8100, 8, 16, .colCnt⟩,
   one 0xA000 .xchEpoch, ⟨0xA100, 8, 16, .xchWin⟩, ⟨0xA200, 8, 16, .xchCnt⟩,
   ⟨0xC000, 8, 16, .stall 0⟩, ⟨0xC100, 8, 16, .stall 1⟩, ⟨0xC200, 8, 16, .stall 2⟩, ⟨0xC300, 8, 16, .stall 3⟩, ⟨0xC400, 8, 16, .stall 4⟩,
   one 0xC800 .seqCycles]

/-- The register at an offset of control space, if one occupies it (R4, R30 to R32). -/
def csrAt (off : Nat) : Option Csr :=
  let blk := off / 0x100000
  let low := off % 0x100000
  if blk < 0x10 then
    match blk with
    | 0x0 => regAt cfgRows low
    | 0x1 => regAt pwrRows low
    | 0x2 => regAt beatRows low
    | 0x3 => regAt hltRows low
    | 0x4 => regAt lidRows low
    | 0x5 => regAt tngRows low
    | 0x6 => regAt cmdRows low
    | 0x8 => (regAt portRows (low % 0x10000)).map (.port (low / 0x10000))
    | 0x9 => if low < 0x10000 then (regAt portRows low).map (.port 16) else none
    | 0xA => regAt [one 0x0 .farCfg, one 0x8 .farStatus] low
    | 0xB => regAt [one 0x0 .pressStatus] low
    | 0xC => regAt [one 0x0 .pcieStatus] low
    | _ => none
  else
    let n := off / 0x10000
    let o := off % 0x10000
    if 0x100 ≤ n ∧ n < 0x100 + 192 then (regAt coreRows o).map (.core (n - 0x100))
    else if 0x200 ≤ n ∧ n < 0x200 + 16 then
      regAt [one 0x0 (.rgnStatus (n - 0x200)), ⟨0x100, 8, 16, .rgnCnt (n - 0x200)⟩] o
    else none

/-! ## Log records (Tables 17.5 and 17.6) -/

/-- HLT_LOG_j: word `j` mod 8 of ring index `j` div 8; 0 where the ring has no record (R492). -/
def LogSt.wordAt (l : LogSt) (j : Nat) : Nat :=
  match l.ring.find? fun r => r.seq % 4096 == j / 8 with
  | some r => r.word (j % 8)
  | none => 0

/-! ## Reading -/

/-- A field's value, width and lowest bit. -/
abbrev Fld := Nat × Nat × Nat

/-- A register from its fields. -/
def packF (l : List Fld) : Nat := sumL (l.map fun f => putBits f.1 f.2.1 f.2.2)

/-- One bit. -/
def bitF (b : Bool) (lo : Nat) : Fld := (b2n b, 1, lo)

/-- One bit for each of the first `n` numbers that satisfy `p`. -/
def maskF (n : Nat) (p : Nat → Bool) : Nat := sumL ((List.range n).map fun i => if p i then 2 ^ i else 0)

/-- Bytes `8 j` to `8 j + 7` of a byte string, little-endian. -/
def wordOf (b : List Byte) (j : Nat) : Nat := leAt b (8 * j) 8

/-- State code of Table 3.13. -/
def CoreState.code : CoreState → Nat
  | .idle => 0
  | .loading => 1
  | .waitingStart => 2
  | .running => 3
  | .draining => 4
  | .aborting => 5

/-- State code of a stationary set (R160). -/
def SetState.code : SetState → Nat
  | .empty => 0
  | .loading => 1
  | .loaded => 2

/-- The bits of the four sets of one kind (Table 5.17). -/
def setBits (v : Vector StatSet 4) : Nat := sumL ((List.range 4).map fun q => 4 ^ q * (vget v q).st.code)

/-- Transfer tags held by the Colander, or by the Ladle. -/
def StreamSt.held (m : StreamSt) (col : Bool) : Nat := (m.tags.toList.filter fun t => t.g.isSome && t.col == col).length

/-- ENABLE, BURST and RATE as last written (R7, R207). -/
def Bucket.written (b : Bucket) : Bool × Nat × Nat :=
  match b.pending with
  | some (e, r, u) => (e, u, r)
  | none => (b.enable, b.burst, b.rate)

/-- A read of a core's register. -/
def CoreSt.readReg (c : CoreSt) : CoreReg → Nat
  | .seqStatus => packF [(maskF 4 fun i => (vget c.races i).st != .free, 4, 44), (c.calls.length, 5, 39), (c.st.code, 3, 32),
      (bitsOf c.pc 22 4, 19, 4)]
  | .seqBeatBase => c.beatBase
  | .seqWdog => c.wdog
  | .seqFault => packF [(c.faultCode, 8, 56), (c.faultQueue, 3, 53), bitF c.faultValid 52, (c.faultPc, 19, 33)]
  | .seqCnt k => vget c.seqCnt k
  | .sklCnt k => vget c.sklCnt k
  | .meStatus => packF [(setBits c.me.shadow, 8, 16), (setBits c.me.active, 8, 8), bitF c.mmulRuns 2, (c.me.shape, 2, 0)]
  | .meCnt k => vget c.me.cnt k
  | .veStatus => packF [(maskF 8 fun k => (vget c.ve.slots k).st == 2, 8, 16), (maskF 8 fun k => (vget c.ve.slots k).st == 1, 8, 8),
      bitF ((vget c.flights 1).any fun f => !f.e.null && !f.done) 0]
  | .veSeed => c.ve.seed.toNat
  | .veFt k =>
    let x := vget c.ve.slots k
    let b := fun i => leAt x.bytes i 1
    if x.st = 2 then packF [(leAt x.bytes 0 4, 32, 32), (b 4, 8, 16), (b 5, 2, 14), (b 6, 4, 10), (b 7, 2, 8), (2, 2, 0)] else x.st
  | .veCnt k => vget c.ve.cnt k
  | .ldlStatus => packF [(c.sm.watched, 4, 32), (c.sm.xfers.length, 6, 24), (c.sm.held true, 7, 16), (c.sm.held false, 7, 8),
      bitF (!c.sm.xfers.isEmpty || c.sm.held false != 0) 0]
  | .ldlReg t =>
    let b := vget c.sm.buckets t
    let (e, u, r) := b.written
    packF [bitF e 63, (b.level, 24, 32), (u, 12, 16), (r, 16, 0)]
  | .ldlCnt k => vget c.sm.ldlCnt k
  | .colStatus => packF [bitF (c.sm.held true != 0) 8, (c.sm.cols.length, 5, 0)]
  | .colCnt k => vget c.sm.colCnt k
  | .xchEpoch => packF [bitF (c.st != .idle) 16, (c.epoch, 16, 0)]
  | .xchWin k =>
    let w := vget c.wins k
    packF [bitF w.isOpen 63, bitF w.mode 62, (w.tk, 6, 56), (w.epoch, 16, 40), (bitsOf w.base 22 6, 17, 23), (w.length / 64, 18, 5),
      (min 31 (c.creditsOn k), 5, 0)]
  | .xchCnt k => vget c.xchCnt k
  | .stall q i => vget (vget c.stalls q) i
  | .seqCycles => c.seqCycles

/-- State code of Table 11.16. -/
def PortState.code : PortState → Nat
  | .disabled => 0
  | .training => 1
  | .active => 2
  | .retraining => 3
  | .mismatch => 4
  | .down => 5

/-- STATE of a lane (Table 11.21); where more than one value applies, the order is the model's (DESIGN CHOICE,
assumption 32). -/
def Port.laneState (p : Port) (l : Nat) : Nat :=
  if bitOf p.testing l then 2 else if bitOf p.dropped l then 3 else if bitOf p.laneOff l then 4
  else if !p.carries then 0 else if bitOf p.active l then 1 else 5

/-- A read of a port's register. -/
def Port.readReg (p : Port) : PortReg → Nat
  | .status => packF [(p.testing, 8, 32), (p.dropped, 8, 24), (p.active, 8, 16), (popc p.active 8, 4, 8), (p.st.code, 3, 0)]
  | .ctrl => packF [(p.laneOff, 8, 8), bitF (p.st != .disabled) 0]
  | .neigh => packF [bitF p.neighValid 63, bitF p.neighRole 21, (p.neighPort, 5, 16), (p.neighPkg, 14, 0)]
  | .lat => min p.lat 65535
  | .fpRx => p.fpRx
  | .lane l => packF [(vget p.corrected l, 32, 16), (vget p.attrib l, 8, 8), (p.laneState l, 3, 0)]
  | .cnt k => vget p.cnt k

/-- State code of Table 1.12. -/
def DieState.code : DieState → Nat
  | .reset => 0
  | .bringup => 1
  | .active => 2
  | .brownHold => 3
  | .degradedHold => 4
  | .unreachable => 5

/-- Width of a die-to-die link (Table 1.13). -/
def D2D.width (x : D2D) : Nat := b2n (x.carries 0) + b2n (x.carries 1)

/-- CFG_CORE_MAP of region block `k` (R11, Table 1.10). -/
def State.coreMap (s : State) (k : Nat) : Nat :=
  let pos := fun i => match (s.region k).spareFor with
    | some f => if i < f then i else i + 1
    | none => i
  packF ([bitF (s.region k).spareFor.isSome 60, (maskF 12 fun i => s.retired (12 * k + i), 12, 48)]
    ++ (List.range 12).map fun i => (pos i, 4, 4 * i))

/-- STATE of a partition (Table 12.19). -/
def State.partState (s : State) (p : Nat) : Nat :=
  let x := s.part p
  if !x.enable then 0
  else if x.heldRestore then 5
  else match x.running with
    | none => 1
    | some a =>
      if (s.getCmd a).any fun c => c.stage == .inDoubt then 4
      else if s.cores.toList.any fun c => c.cmd == some a && c.st == .waitingStart then 3
      else 2

/-- Pairing state code (Table 13.13). -/
def PairState.code : PairState → Nat
  | .unpaired => 0
  | .pairing => 1
  | .paired => 2
  | .degraded => 3
  | .refused => 4

/-- Die `d`, or a block in it, is in reset (Table 14.12). The table resets IN_RESET to 0, so a die that boot has yet to
bring up does not count (DEDUCED, assumption 33). -/
def State.inReset (s : State) (d : Nat) : Bool :=
  (decide (4 < s.power.stage) && ((s.die d).st == .reset || (s.die d).st == .bringup))
    || (List.range 4).any fun g => (s.region (4 * d + g)).inReset || (List.range 12).any fun i =>
      let n := 12 * (4 * d + g) + i
      (s.core n).inReset && !s.retired n

/-- A read of the configuration, identity and power registers. -/
def State.readCfg (s : State) : Csr → Nat
  | .cfgPkgId => packF [bitF s.cfg.valid 15, (s.cfg.pkgId, 14, 0)]
  | .cfgTorusDim => packF [(7, 3, 11), (s.cfg.nc, 3, 8), (s.cfg.nb, 4, 4), (s.cfg.na, 4, 0)]
  | .cfgDieStatus => packF (((List.range 8).map fun l => ((s.link l).width, 2, 16 + 2 * l))
      ++ (List.range 4).map fun d => ((s.die d).st.code, 4, 4 * d))
  | .cfgCoreMap k => s.coreMap k
  | .cfgStatus => packF [((s.cfg.active.map (·.gen)).getD 0, 32, 32), (s.cfg.stage, 3, 2), bitF s.cfg.stale 1, bitF s.cfg.defaulted 0]
  | .cfgFp i => wordOf s.cfg.fp i
  | .cfgActBeat => s.cfg.actBeat
  | .cfgActGen => s.cfg.actGen
  | .cfgDevid i => if 1 < s.power.stage then wordOf deviceId i else 0
  | .cfgAttNonce i => (vget s.fw.nonce i).toNat
  | .cfgAttStatus => packF [(if s.fw.attState = 3 then s.fw.report.length else 0, 16, 32), (s.fw.attDetail, 8, 8), (s.fw.attState, 3, 0)]
  | .cfgAttObj k => (vget s.fw.attObj k).toNat
  | .cfgAttOff k => (vget s.fw.attOff k).toNat
  | .cfgFwStatus => packF [(s.fw.arb, 8, 56), (s.fw.svnRun, 8, 48), (s.fw.slotB.svn, 8, 40), (s.fw.slotA.svn, 8, 32),
      (s.fw.lastReject, 8, 24), bitF s.fw.reverted 20, bitF (s.fw.busy != 0) 19, bitF s.fw.attempted 18, bitF s.fw.trial 17,
      bitF s.fw.active 16, (s.fw.slotB.st, 2, 2), (s.fw.slotA.st, 2, 0)]
  | .cfgFwSrc => s.fw.src
  | .cfgIdPub j => if 1 < s.power.stage then wordOf publicKey j else 0
  | .cfgCert j => wordOf certificate j
  | .cfgAttData j => if s.fw.attState = 3 then wordOf s.fw.report j else 0
  | .pwrStatus => packF [bitF s.power.stateKept 11, bitF s.power.srClean 10, bitF s.power.capUnmet 9, bitF s.power.thermWarn 8,
      bitF s.power.degraded 7, bitF s.power.brown 6, (s.dutyMin, 4, 2), (s.power.capInForce, 2, 0)]
  | .pwrCap => packF [(s.power.trayMode, 2, 2), (s.power.hostMode, 2, 0)]
  | .pwrStraps => s.power.straps
  | .pwrBoot => packF [(s.power.bootMs, 32, 32), bitF s.power.failed 8, (s.power.stage, 3, 0)]
  | .pwrRail r => packF [((vget s.power.rails r).st, 2, 48), ((vget s.power.rails r).volt, 16, 16), (s.railTarget r, 16, 0)]
  | .pwrTherm d => packF [(s.power.tWarn, 8, 16), (if d < 4 then (s.die d).thermDuty else 0, 8, 8), (vget s.power.tmax d, 8, 0)]
  | .pwrCnt k => vget s.power.cnt k
  | .rstStatus => packF [(maskF 4 s.inReset, 4, 4), (s.power.cause, 4, 0)]
  | _ => 0

/-- A read of the registers of the beat unit, the log, the integrity controls and the Lid. -/
def State.readHub (s : State) : Csr → Nat
  | .beatStatus => packF [(min 7 s.beat.depthShown, 3, 9), bitF s.beat.slewing 8, bitF s.beat.holdover 7, bitF s.beat.freeRun 6,
      bitF s.beat.strapRsv 5, (s.beat.mode, 2, 2), (s.beat.lock.code, 2, 0)]
  | .beatCount => s.beat.count
  | .beatCtrl => packF [(s.beat.maxSlips, 8, 16), bitF s.beat.root 4, (s.beat.srcPort, 4, 0)]
  | .beatHold => s.beat.elapsed
  | .beatCnt k => vget s.beat.cnt k
  | .hltLogStatus => packF [(s.log.overwritten, 32, 32), (s.log.suppressed, 32, 0)]
  | .hltLogNext => s.log.next
  | .hltLogCtrl => s.log.limit
  | .hltLog j => s.log.wordAt j
  | .hltEvtMask i => (vget s.log.mask i).toNat
  | .hltClrAt => s.log.clrAt.toNat
  | .hltClrStatus => s.log.clears.length
  | .hltClrLast => s.log.clrLast
  | .hltCodeCnt c => vget s.log.codeCnt c
  | .hltBistCtrl => packF [bitF s.integ.bistEnable 63, bitF s.integ.bistClock 62, (s.integ.pkgMax, 6, 32), (s.integ.rgnMax, 2, 0)]
  | .hltBistWin => s.integ.bistWin
  | .hltBistLen => s.integ.bistLen
  | .hltBistResv w => (vget s.integ.bistResv w).toNat
  | .hltIcnt k => vget s.integ.icnt k
  | .lidStatus => packF [(s.lid.partnerFeed, 4, 32), (s.lid.partnerId, 14, 8), bitF s.lid.flashOk 7, bitF s.lid.storeWait.isSome 6,
      bitF s.lid.flash.isSome 5, bitF s.lid.secure.isSome 4, bitF (!s.lid.restoring.isEmpty) 3, (s.lid.st.code, 3, 0)]
  | .lidCfg => packF [(s.lid.partner, 14, 36), bitF s.lid.partnerValid 35, (s.lid.nStore, 8, 24), (s.lid.nFlash, 8, 16),
      (s.lid.slotGib, 8, 0)]
  | .lidFlash => s.lid.firstLba
  | .lidCtrl => s.lid.rate
  | .lidRisk => packF [bitF (decide (s.lid.high ≤ s.lid.risk)) 10, (s.lid.risk, 10, 0)]
  | .lidRiskCtrl => packF [(s.lid.minGap, 32, 32), (s.lid.decay, 16, 16), (s.lid.high, 10, 0)]
  | .lidRiskW => s.lid.weights.toNat
  | .lidStoreAddr => s.lid.storeAddr
  | .lidRestorePoint => s.lid.restorePoint
  | .lidRestoreStart => s.lid.restoreStart
  | .lidPartCtrl p =>
    let x := s.lp p
    packF [bitF x.native 63, bitF x.align 62, (x.lSteps, 16, 33), (x.baseSteps, 16, 17), (x.slotUnits, 17, 0)]
  | .lidPartStat p => packF [((s.lp p).gen, 32, 32), ((s.lp p).stepsDone, 16, 16), ((s.lp p).stepsSince, 16, 0)]
  | .lidPartMark p => packF [((s.lp p).active, 2, 32), ((s.lp p).marker, 32, 0)]
  | .lidPartFreeze p => (s.lp p).freezeBeat
  | .lidCnt k => vget s.lid.cnt k
  | r => s.readCfg r

/-- The fewest spare rows left in a bank of a slice (Table 10.8). -/
def Region.minSpareRows (g : Region) : Nat :=
  let out := fun (b : Nat) => (g.bankMap.any fun x => x.1 == b && x.2 != b) || (128 ≤ b && !g.bankMap.any fun x => x.2 == b)
  minL 64 (((g.retiredRows ++ g.testRows).filter fun x => !out x.1).map fun x => g.spareLeft x.1)

/-- Rows of a slice under targeted test. -/
def State.rowsTested (s : State) (r : Nat) : Nat :=
  (s.integ.tests.filter fun t => t.running && match t.loc with
    | .row sl _ _ => sl == r
    | _ => false).length

/-- A read of a register (Table 0.4): write-only registers and fields, and reserved bits, read 0. -/
def State.readCsr (s : State) : Csr → Nat
  | .tngStatus => packF [(s.tongs.objs.length, 20, 32), (s.tongs.copying, 5, 16),
      (min 4095 (s.tongs.moves.length - s.tongs.copying), 12, 4), (maskF 3 s.tierUp, 3, 0)]
  | .tngCtrl => packF [(s.tongs.evictWait, 32, 32), (s.tongs.moveRate, 24, 0)]
  | .tngTier t => packF [(s.tierCap t, 32, 32), (s.tierFree t, 32, 0)]
  | .tngQuota c t =>
    let q := s.quota c t
    packF [bitF q.auto 63, bitF (decide (q.limit < q.used)) 62, (q.used, 24, 32), (q.limit, 24, 0)]
  | .tngCnt k => vget s.tongs.cnt k
  | .cmdStatus => packF [(min 16384 (ceilDiv s.cmd.used 8192), 15, 32), bitF s.cmd.replaying 2, bitF s.unpaired 1, bitF s.accepting 0]
  | .cmdAcceptNo => s.cmd.nextAccept
  | .cmdCtrl => packF [(s.cmd.rerunDefault, 8, 24), (s.cmd.groupLead, 24, 0)]
  | .cmdClient c => packF [bitF (vget s.cmd.clients c).valid 63, ((vget s.cmd.clients c).part, 4, 0)]
  | .cmdPartCtrl p => packF [bitF (s.part p).enable 63, (s.partState p, 3, 8), ((s.part p).ctxs.length, 3, 0)]
  | .cmdPartCores p w => (vget (s.part p).cores w).toNat
  | .cmdCnt k => vget s.cmd.cnt k
  | .cmdCli c k => vget (vget s.cmd.cli c) k
  | .farCfg => packF [(s.tongs.density, 2, 10), bitF s.tongs.ranks 9, bitF s.tongs.rate 8]
  | .farStatus => packF [bitF s.tongs.farPresent 32, (popc s.tongs.trained 24, 5, 24), (s.tongs.trained, 24, 0)]
  | .pressStatus => packF [(s.tongs.codecVer, 8, 8), bitF s.tongs.pressReady 0]
  | .pcieStatus => packF [(s.lid.pcieWidth, 4, 16), (s.lid.pcieRate, 4, 12), bitF s.lid.pcieFlit 11, bitF s.lid.nvmeReady 10,
      (s.lid.pcieState, 3, 0)]
  | .port p r => (s.port p).readReg r
  | .core n r => (s.core n).readReg r
  | .rgnStatus r =>
    let g := s.region r
    packF [(g.slice, 2, 48), (min 65535 g.retiredRows.length, 16, 32), (g.spareBanks.length, 2, 24), (g.minSpareRows, 7, 16),
      (s.rowsTested r, 4, 8), ((s.integ.slices.filter fun x => coreSlice x.1 == r).length, 2, 0)]
  | .rgnCnt r k => vget (s.region r).cnt k
  | r => s.readHub r

/-- The value that a read of a register returns. -/
def State.csrValue (s : State) (r : Csr) : Word := toW (s.readCsr r)

/-- The register lies in a block that is held in reset (R5, R14, R430, R440). The root port's block answers also while the
port is reset by VDD_PCIE (DESIGN CHOICE, assumption 33: Table 14.2 resets the port and does not say its block). -/
def State.csrHeld (s : State) (off : Nat) (r : Csr) : Bool :=
  let dieHeld := fun (d : Nat) => (s.die d).st == .reset || (s.die d).st == .bringup
  let block := match r with
    | .core n _ => (s.core n).inReset || s.retired n || (s.region (coreSlice n)).inReset || dieHeld (coreDie n)
    | .rgnStatus g => (s.region g).inReset || dieHeld (sliceDie g)
    | .rgnCnt g _ => (s.region g).inReset || dieHeld (sliceDie g)
    | _ => false
  block || (!s.power.ready && decide (0x200000 ≤ off))

end Sys2Proof.Machine
end

