-- ==== Sys2Proof/Machine/Control.lean ====
section
/-!
DEFINITION. Control-space accesses from the host port: the checks of an access (R2 to R7), what a write of each register
does, and the rows of the table that are such writes.
-/

namespace Sys2Proof.Machine

open Sys2Proof

/-! ## Writes that are refused (R350) -/

/-- Two core sets have a core in common. -/
def coresMeet (a b : Vector Word 3) : Bool := (List.range 3).any fun w => vget a w &&& vget b w != 0

/-- A core set with no core. -/
def coresEmpty (a : Vector Word 3) : Bool := a.toList.all (· == 0)

/-- The enabled partitions other than `p` whose core set meets that of `p`. -/
def State.partsMeet (s : State) (p : Nat) (cores : Vector Word 3) : Bool :=
  (List.range 16).any fun q => q != p && (s.part q).enable && coresMeet cores (s.part q).cores

/-- A client has unresolved commands. -/
def State.clientBusy (s : State) (c : Nat) : Bool := s.cmd.cmds.any fun x => x.client == c && x.stage != .resolved

/-- CMD_CLIENT_c written (R350). -/
def State.writeClient (s : State) (c : Nat) (w : Word) : Nat × State :=
  let p := fld w 3 0
  if (vget s.cmd.clients c).part ≠ p ∧ s.clientBusy c = true then (0x1F, s)
  else (0, s.modCmdU fun u => { u with clients := vmod u.clients c fun x => { x with valid := bitOf w.toNat 63, part := p } })

/-- CMD_PART_p_CTRL written (R350). -/
def State.writePartCtrl (s : State) (p : Nat) (w : Word) : Nat × State :=
  let en := bitOf w.toNat 63
  if en ∧ (coresEmpty (s.part p).cores ∨ s.partsMeet p (s.part p).cores = true) then (0x1F, s)
  else (0, s.modPart p fun x => { x with enable := en })

/-- CMD_PART_p_CORES_w written (R350). -/
def State.writePartCores (s : State) (p i : Nat) (w : Word) : Nat × State :=
  if (s.part p).enable ∧ vget (s.part p).cores i ≠ w then (0x1F, s)
  else (0, s.modPart p fun x => { x with cores := vset x.cores i w })

/-! ## Writes by block -/

/-- A write of a core's register (R96, R207). -/
def CoreSt.writeReg (c : CoreSt) (r : CoreReg) (w : Word) : CoreSt :=
  match r with
  | .seqWdog => { c with wdog := fld w 31 0 }
  | .seqFault => { c with faultValid := c.faultValid && !bitOf w.toNat 52 }
  | .ldlReg t =>
    { c with sm := { c.sm with buckets := vmod c.sm.buckets t fun b => { b with pending := some (bitOf w.toNat 63, fld w 15 0, fld w 27 16) } } }
  | _ => c

/-- FJL_CTRL of a port written (R323, R324, R339). -/
def State.writePortCtrl (s : State) (p : Nat) (w : Word) : State :=
  let s := s.writeLaneOff p (fld w 15 8)
  if bitOf w.toNat 63 then s.retrain p else s

/-- A write of a configuration, identity or power register. -/
def State.writeCfg (s : State) (r : Csr) (w : Word) : Nat × State :=
  let v := w.toNat
  match r with
  | .cfgStageCtrl => (0, s.writeStageCtrl v)
  | .cfgActBeat => (0, s.modCfg fun c => { c with actBeat := v })
  | .cfgActGen => (0, s.announceGen v)
  | .cfgStageData j => (0, s.modCfg fun c => { c with stageData := c.stageData.writeLE (8 * j) 8 v })
  | .cfgAttNonce i => (0, s.modFw fun f => { f with nonce := vset f.nonce i w })
  | .cfgAttCtrl => s.writeAttCtrl v
  | .cfgAttObj k => (0, s.modFw fun f => { f with attObj := vset f.attObj k (toW (2 ^ 32 * fld w 63 32 + fld w 20 0)) })
  | .cfgAttOff k => (0, s.modFw fun f => { f with attOff := vset f.attOff k (toW (fld w 39 0)) })
  | .cfgFwStatus => (0, s.modFw fun f => { f with reverted := f.reverted && !bitOf v 20 })
  | .cfgFwSrc => (0, s.modFw fun f => { f with src := 4096 * fld w 63 12 })
  | .cfgFwCtrl => s.writeFwCtrl (fld w 63 60)
  | .pwrStatus => (0, s.modPower fun p => { p with
      capUnmet := p.capUnmet && !bitOf v 9, thermWarn := p.thermWarn && !bitOf v 8
      degraded := p.degraded && !bitOf v 7, brown := p.brown && !bitOf v 6 })
  | .pwrCap => (0, s.modPower fun p => { p with hostMode := fld w 1 0 })
  | .rstReq => s.writeRst v
  | _ => (0, s)

/-- A write of a register of the log, the integrity controls or the Lid. -/
def State.writeHub (s : State) (r : Csr) (w : Word) : Nat × State :=
  let v := w.toNat
  match r with
  | .beatSeed => s.writeSeed (fld w 63 16)
  | .hltLogCtrl => (0, { s with log := { s.log with limit := fld w 15 0 } })
  | .hltEvtMask i => (0, { s with log := { s.log with mask := vset s.log.mask i w } })
  | .hltClrAt => (0, { s with log := { s.log with clrAt := w } })
  | .hltClr => s.writeClr v
  | .hltBistCtrl => (0, s.modInteg fun i => { i with
      bistEnable := bitOf v 63, bistClock := bitOf v 62, pkgMax := fld w 37 32, rgnMax := fld w 1 0 })
  | .hltBistWin => (0, s.modInteg fun i => { i with bistWin := v })
  | .hltBistLen => (0, s.modInteg fun i => { i with bistLen := fld w 31 0 })
  | .hltBistResv k => (0, s.modInteg fun i => { i with bistResv := vset i.bistResv k w })
  | .lidCtrl => (0, (s.modLid fun l => { l with rate := fld w 15 0 }).lidResume)
  | .lidRiskCtrl => (0, s.modLid fun l => { l with minGap := fld w 63 32, decay := fld w 31 16, high := fld w 9 0 })
  | .lidRiskW => (0, s.modLid fun l => { l with weights := w })
  | .lidStoreAddr => (0, s.modLid fun l => { l with storeAddr := 2 ^ 21 * fld w 63 21 })
  | .lidStoreAck => (0, s.writeStoreAck v)
  | .lidRestoreCtrl => s.writeRestore v
  | .lidRestorePoint => (0, s.modLid fun l => { l with restorePoint := v })
  | .lidRestoreStart => (0, s.modLid fun l => { l with restoreStart := v })
  | .lidPartCtrl p => (0, s.modLp p fun x => { x with lSteps := fld w 48 33, baseSteps := fld w 32 17 })
  | .lidPartMark p => (0, s.modLp p fun x => { x with marker := fld w 31 0 })
  | r => s.writeCfg r w

/-- A write of a register (Table 0.4): the code that answers it, 0 when it is performed, and the state. Read-only registers
and fields ignore it. -/
def State.writeCsr (s : State) (r : Csr) (w : Word) : Nat × State :=
  match r with
  | .tngCtrl => (0, s.modTongs fun t => { t with evictWait := fld w 63 32, moveRate := fld w 23 0 })
  | .tngQuota c t =>
    let s := s.modTongs fun u => { u with
      quotas := vmod u.quotas c fun v => vmod v t fun q => { q with auto := bitOf w.toNat 63, limit := fld w 23 0 } }
    (0, if s.tongs.waits = [] then s else s.retryWaits)
  | .cmdCtrl => (0, s.modCmdU fun u => { u with rerunDefault := fld w 31 24, groupLead := fld w 23 0 })
  | .cmdClient c => s.writeClient c w
  | .cmdPartCtrl p => s.writePartCtrl p w
  | .cmdPartCores p i => s.writePartCores p i w
  | .port p .ctrl => (0, s.writePortCtrl p w)
  | .core n x => (0, s.modCore n fun c => c.writeReg x w)
  | r => s.writeHub r w

/-! ## An access (R2 to R7) -/

/-- The first of R2, R4 and R5 that an access of `width` bytes meets, in the order of R6: its code, or the register. -/
def State.csrCheck (s : State) (off width : Nat) : Except Nat Csr :=
  if width ≠ 8 ∨ off % 8 ≠ 0 then .error 0x12
  else match csrAt off with
    | none => .error 0x11
    | some r => if s.csrHeld off r then .error 0x13 else .ok r

/-- CSR_REPLY. -/
def State.csrReply (s : State) (tag code : Nat) (value : Word) : State := s.sendHost 0xFE tag (.csrReply code value)

/-- A control-space access received on the host port: refused with one log record, or performed; `act` gives the code, the
value and the state of a register's access. A write that is refused for its register's own rule writes one record too: with 0x13, 0x1F or
0x75 here (R380, R381, R448), with another code where it is raised. -/
def State.csrAccess (s : State) (v : Via) (mtype off width : Nat) (act : State → Csr → Nat × Word × State) : State :=
  let (ok, s) := s.receive v mtype
  if !ok then s
  else match s.csrCheck off width with
    | .error code => (s.logEv { code := code, unit := 0xFE, addr := .ctrl off }).csrReply v.tag code 0
    | .ok r =>
      let (code, value, s) := act s r
      let s := if [0x13, 0x1F, 0x75].contains code then s.logEv { code := code, unit := 0xFE, addr := .ctrl off } else s
      s.csrReply v.tag code value

/-- A control-space write. -/
def State.csrWrite (s : State) (v : Via) (off width : Nat) (w : Word) : State :=
  s.csrAccess v 0x22 off width fun s r =>
    let (code, s) := s.writeCsr r w
    (code, 0, s)

/-- A control-space read. -/
def State.csrRead (s : State) (v : Via) (off width : Nat) : State :=
  s.csrAccess v 0x21 off width fun s r => (0, s.csrValue r, s)

/-! ## The rows -/

/-- CSR_READ (R6): of `width` bytes at an offset. -/
def execCsrRead (v : Via) (off width : Nat) (s : State) : Answer := .next (s.csrRead v off width)

/-- CSR_WRITE (R7): of `width` bytes at an offset. -/
def execCsrWrite (v : Via) (off width : Nat) (value : Word) (s : State) : Answer := .next (s.csrWrite v off width value)

/-- BEAT_SEED (R47): VALUE. -/
def execBeatSeed (v : Via) (value : Nat) (s : State) : Answer := .next (s.csrWrite v 0x200018 8 (toW (2 ^ 16 * value)))

/-- LDL_REG_WRITE (R207): bucket `tier` of a core. -/
def execLdlRegWrite (v : Via) (core tier : Nat) (enable : Bool) (burst rate : Nat) (s : State) : Answer :=
  .next (s.csrWrite v (0x1000000 + 0x10000 * core + 0x6010 + 8 * tier) 8 (toW (packF [bitF enable 63, (burst, 12, 16), (rate, 16, 0)])))

/-- QUOTA_LIMIT_WRITE (R268): AUTO and LIMIT of a client in a tier. -/
def execQuotaLimitWrite (v : Via) (client tier : Nat) (auto : Bool) (limit : Nat) (s : State) : Answer :=
  .next (s.csrWrite v (0x501000 + 32 * client + 8 * tier) 8 (toW (packF [bitF auto 63, (limit, 24, 0)])))

/-- FJL_CTRL of a port. -/
def fjlCtrlOff (port : Nat) : Nat := 0x800008 + 0x10000 * port

/-- RETRAIN (R339): a write of 1 to FJL_CTRL.RETRAIN, with LANE_OFF beside it. -/
def execRetrain (v : Via) (port laneOff : Nat) (s : State) : Answer :=
  .next (s.csrWrite v (fjlCtrlOff port) 8 (toW (packF [bitF true 63, (laneOff, 8, 8)])))

/-- LANE_OFF_WRITE (R324). -/
def execLaneOffWrite (v : Via) (port laneOff : Nat) (s : State) : Answer :=
  .next (s.csrWrite v (fjlCtrlOff port) 8 (toW (packF [(laneOff, 8, 8)])))

/-- LID_STORE_ACK (R401). -/
def execLidStoreAck (v : Via) (part gen : Nat) (s : State) : Answer :=
  .next (s.csrWrite v 0x400040 8 (toW (packF [(part, 4, 32), (gen, 32, 0)])))

/-- RESTORE (R408): GO with a SOURCE and a PARTITION. -/
def execRestore (v : Via) (source part : Nat) (s : State) : Answer :=
  .next (s.csrWrite v 0x400048 8 (toW (packF [bitF true 63, (source, 2, 8), (part, 4, 0)])))

/-- HOST_MODE_WRITE (R423). -/
def execHostModeWrite (v : Via) (mode : Nat) (s : State) : Answer := .next (s.csrWrite v 0x100008 8 (toW (packF [(mode, 2, 0)])))

/-- RST_REQ. -/
def rstValue (scope target : Nat) : Word := toW (packF [(scope, 2, 62), (target, 8, 0)])

/-- CORE_RESET (R429). -/
def execCoreReset (v : Via) (core : Nat) (s : State) : Answer := .next (s.csrWrite v 0x108000 8 (rstValue 1 core))

/-- REGION_RESET (R429). -/
def execRegionReset (v : Via) (region : Nat) (s : State) : Answer := .next (s.csrWrite v 0x108000 8 (rstValue 2 region))

/-- DIE_RESET (R429). -/
def execDieReset (v : Via) (die : Nat) (s : State) : Answer := .next (s.csrWrite v 0x108000 8 (rstValue 3 die))

/-- CFG_STAGE (R444): GO with LENGTH. -/
def execCfgStage (v : Via) (length : Nat) (s : State) : Answer :=
  .next (s.csrWrite v 0x340 8 (toW (packF [bitF true 63, (length, 17, 0)])))

/-- ACTIVATION_ANNOUNCE (R445): the GEN written to CFG_ACT_GEN. -/
def execActivationAnnounce (v : Via) (gen : Word) (s : State) : Answer := .next (s.csrWrite v 0x350 8 gen)

/-- FW_STAGE (R457). -/
def execFwStage (v : Via) (s : State) : Answer := .next (s.csrWrite v 0x610 8 (toW (packF [(1, 4, 60)])))

/-- FW_ACTIVATE (R457). -/
def execFwActivate (v : Via) (s : State) : Answer := .next (s.csrWrite v 0x610 8 (toW (packF [(2, 4, 60)])))

/-- ARB_COMMIT (R457). -/
def execArbCommit (v : Via) (s : State) : Answer := .next (s.csrWrite v 0x610 8 (toW (packF [(3, 4, 60)])))

/-- ATTEST_REQUEST (R461): GO with CORE, TABLES and NOBJ. -/
def execAttestRequest (v : Via) (core : Nat) (tables : Bool) (nobj : Nat) (s : State) : Answer :=
  .next (s.csrWrite v 0x440 8 (toW (packF [bitF true 63, (core, 8, 32), bitF tables 31, (nobj, 5, 0)])))

/-- HLT_CLR (R486): GO with BANK and TARGET. -/
def execHltClr (v : Via) (bank target : Nat) (s : State) : Answer :=
  .next (s.csrWrite v 0x300068 8 (toW (packF [bitF true 63, (bank, 4, 12), (target, 8, 0)])))

end Sys2Proof.Machine
end

