-- ==== Sys2Proof/Machine/CoreEvents.lean ====
section
/-!
DEFINITION. The events of a core: instruction-buffer refills, completions, deadlines, faults and the ends of draining
and aborting (R74, R79 to R97, R206, R218, R372, R377).
-/

namespace Sys2Proof.Machine

open Sys2Proof

/-- IBUF_REFILL (R74): the line of the PC is read in 16 cycles; a PC outside the program region raises 0x4D. -/
def State.refill (s : State) (n : Nat) : State :=
  let c := s.core n
  if c.fetches = false ∨ c.lineHeld = true then s
  else if c.progEnd ≤ c.pc then s.raiseFault n 0 0x4D c.pc .none
  else s.modCore n fun c => ({ c.touchLine with late := ageLate 16 c.late }).seqBump 6 16

/-- Rereads of the Skillet, the input buffers and the ACC that passed (R112, R286, Table 13.8). -/
def State.coreRereads (s : State) (n k : Nat) : State :=
  iter State.riskReread k (s.modCore n fun c => { c with sklCnt := bumpBy c.sklCnt 2 k })

/-- Instruction `idx` in execution in the ME or the VE has done its work (R79, R81, R146). -/
def CoreSt.workDone (c : CoreSt) (q idx : Nat) : CoreSt :=
  let l := vget c.flights (q - 1)
  match l[idx]? with
  | none => c
  | some f =>
    let c := if q = 1 ∧ !f.done then c.meDone f else c
    { c with flights := vset c.flights (q - 1) (l.set idx { f with done := true, left := 0 }) }

/-- Work of queue `q` ends on core `n`, in which `rereads` parity rereads passed: instruction `idx` of the ME or the VE; the
other queues' instructions complete by events of their own. -/
def State.finish (s : State) (n q idx rereads : Nat) : State :=
  if (s.core n).busy then
    let s := s.coreRereads n rereads
    if q = 1 ∨ q = 2 then (s.modCore n fun c => c.workDone q idx).settle n else s
  else s

/-- A pending race reaches its deadline (R88, R89). -/
def State.deadline (s : State) (n slot : Nat) : State :=
  if (s.core n).busy = true ∧ slot < 4 ∧ (vget (s.core n).races slot).st = .pending then
    let s := s.toBeat ((s.core n).deadline slot)
    if (s.core n).deadline slot ≤ s.now then (s.loseRace n slot 1).settle n else s
  else s

/-- Store and scatter granules of a core that no tier has answered (R218). -/
def CoreSt.storesOut (c : CoreSt) : Bool :=
  c.sm.tags.toList.any fun t => t.g.any fun p => p.2.kind == .store || p.2.kind == .scatter

/-- An aborting core is IDLE (R218), and its command's attempt may have ended (R366). -/
def State.abortDone (s : State) (n : Nat) : State :=
  let c := s.core n
  if c.st ≠ .aborting ∨ c.storesOut = true then s
  else
    let s := s.modCore n fun c => (c.toIdle s.edge).seqBump 11 1
    match c.cmd with
    | none => s
    | some a => s.endAttempt a

/-- A draining core whose work has completed is IDLE (R97); with the last core the attempt has ended (R365, R370). -/
def State.drainDone (s : State) (n : Nat) : State :=
  let s := s.settle n
  let c := s.core n
  if c.st ≠ .draining ∨ c.drained = false then s
  else
    let s := s.modCore n fun c => (c.toIdle s.edge).seqBump 10 1
    match c.cmd.bind s.getCmd with
    | none => s
    | some k =>
      let a := k.acceptNo
      let s := s.modCmd a fun k => { k with ended := k.ended ++ [n] }
      if k.stage = .running ∧ (k.cores.all fun m => m == n || k.ended.contains m) = true then s.allEnded a else s

/-- The core makes no progress for LIMIT beats (R96). -/
def State.noProgress (s : State) (n : Nat) : State :=
  let c := s.core n
  if (c.st ≠ .running ∧ c.st ≠ .draining) ∨ c.wdog = 0 ∨ s.watchExempt n = true then s
  else
    let s := s.advance (if c.progress then c.wdog + 1 else c.wdog - c.noProg)
    if c.wdog ≤ (s.core n).noProg then s.raiseFault n 0 0x4E c.pc .none else s

/-- The instruction at the head of a queue, or the sequencer's. -/
def CoreSt.headOf (c : CoreSt) (q : Nat) : Option Entry :=
  if q = 0 then c.cur else (vget c.queues (q - 1)).head?

/-- The not-before beat of a head is reached (R56). -/
def State.notBefore (s : State) (n q : Nat) : State :=
  match (s.core n).headOf q with
  | none => s
  | some e =>
    if (s.core n).busy = true ∧ e.h.nb ≠ 0 then (s.toBeat ((s.core n).beatBase + e.h.nb.toNat)).settle n else s

/-- A command that is to be killed stops at its beat edge (R372, R375, R377). -/
def State.killed (s : State) (a : Nat) : State :=
  match s.getCmd a with
  | none => s
  | some c => match c.kill with
    | none => s
    | some (code, sub, cause, pkg) =>
      let s := s.toEdge c.killEdge
      if s.edge < c.killEdge ∨ [.committing, .resolved, .mirroring, .object].contains c.stage then s
      else
        let s := s.logEv { code := code, unit := 0xF1, sub := sub, cause := cause, pkg := pkg, acceptNo := a }
        s.stopAttempt a code sub cause pkg

/-! ## The rows -/

/-- IBUF_REFILL (R74). -/
def execIbufRefill (core : Nat) (s : State) : Answer := .next (s.refill core)
/-- INSTRUCTION_COMPLETE (R81): instruction `idx`, oldest first, of the ME (q = 1) or the VE (q = 2), with the rereads of
core stores that passed in it (R112); for another queue only these. -/
def execInstructionComplete (core q idx rereads : Nat) (s : State) : Answer := .next (s.finish core q idx rereads)
/-- RACE_DEADLINE (R89): the clock runs to the deadline. -/
def execRaceDeadline (core slot : Nat) (s : State) : Answer := .next (s.deadline core slot)
/-- FAULT (R93): the fault that an engine or the sequencer of a core raises; 0x20 and 0x24 also put the store or the core
under test (R286, R299). -/
def execFaultRaise (core q code pc : Nat) (addr : LogAddr) (detail : Nat) (s : State) : Answer :=
  .next ((s.raiseFaultD core q code pc addr detail).coreError core code addr detail)
/-- ABORTING_COMPLETE (R218). -/
def execAbortingComplete (core : Nat) (s : State) : Answer := .next (s.abortDone core)
/-- DRAIN_COMPLETE (R97). -/
def execDrainComplete (core : Nat) (s : State) : Answer := .next (s.drainDone core)
/-- NO_PROGRESS (R96): the clock runs to the limit. -/
def execNoProgress (core : Nat) (s : State) : Answer := .next (s.noProgress core)
/-- NOT_BEFORE_REACHED (R56): the clock runs to the beat. -/
def execNotBeforeReached (core q : Nat) (s : State) : Answer := .next (s.notBefore core q)
/-- LEVEL_GAIN (R206): one beat edge, at which every bucket gains; the core issues what it now can. -/
def execLevelGain (core : Nat) (s : State) : Answer := .next (s.tick.settle core)
/-- KILLED (R377): the clock runs to the beat edge. -/
def execKilled (a : Nat) (s : State) : Answer := .next (s.killed a)

end Sys2Proof.Machine
end

