-- ==== Sys2Proof/Machine/Engines.lean ====
section
/-!
DEFINITION. The rows of the instructions of the engines (R120 to R228, R369): each is its queue code and opcode (Tables 3.4, 3.10, 4.6, 5.11,
6.8, 7.6) given to the operation that all instructions share; what the instruction does is in Machine/Settle.lean and the
files that it imports.
-/

namespace Sys2Proof.Machine

open Sys2Proof

/-- RDV (R369): The Exchange rendezvous instruction marks a core ready for rendezvous k; when every core has executed it, the package sends READY. -/
def execRdv (core : Nat) (h : Hdr) (b : Word) (s : State) : Answer := .next (s.instr core 5 0x05 h b)
/-- WOPEN (R120): Opens a receive window slot in credit or counter mode. -/
def execWopen (core : Nat) (h : Hdr) (b : Word) (s : State) : Answer := .next (s.instr core 5 0x01 h b)
/-- WCLOSE (R130): Closes a window slot, cancels its credits and advances its epoch. -/
def execWclose (core : Nat) (h : Hdr) (b : Word) (s : State) : Answer := .next (s.instr core 5 0x02 h b)
/-- GRANT (R127): The Exchange instruction that sends a credit for a window range to one sender core. -/
def execGrant (core : Nat) (h : Hdr) (b : Word) (s : State) : Answer := .next (s.instr core 5 0x03 h b)
/-- PUT (R124): A remote write, sent as arrivals of up to 2 KiB once a credit covers it in credit mode. -/
def execPut (core : Nat) (h : Hdr) (b : Word) (s : State) : Answer := .next (s.instr core 5 0x04 h b)
/-- MSHAPE (R137): Changes the matrix-engine shape and empties every stationary set. -/
def execMshape (core : Nat) (h : Hdr) (b : Word) (s : State) : Answer := .next (s.instr core 1 0x01 h b)
/-- SLOAD (R145): Loads a stationary tile into the shadow set of a sub-array. -/
def execSload (core : Nat) (h : Hdr) (b : Word) (s : State) : Answer := .next (s.instr core 1 0x02 h b)
/-- IFILL (R148): Fills an ME input buffer from the Skillet, straight or transposed. -/
def execIfill (core : Nat) (h : Hdr) (b : Word) (s : State) : Answer := .next (s.instr core 1 0x03 h b)
/-- MMUL (R150): Streams buffer columns through the named sub-arrays into the ACC. -/
def execMmul (core : Nat) (h : Hdr) (b : Word) (s : State) : Answer := .next (s.instr core 1 0x04 h b)
/-- ACCST (R153): Copies ACC rows to the Skillet. -/
def execAccst (core : Nat) (h : Hdr) (b : Word) (s : State) : Answer := .next (s.instr core 1 0x05 h b)
/-- VE_ADD (R170): Vector elementwise add. -/
def execVeAdd (core : Nat) (h : Hdr) (b : Word) (s : State) : Answer := .next (s.instr core 2 0x01 h b)
/-- VE_SUB (R170): Vector elementwise subtract. -/
def execVeSub (core : Nat) (h : Hdr) (b : Word) (s : State) : Answer := .next (s.instr core 2 0x02 h b)
/-- VE_MUL (R170): Vector elementwise multiply. -/
def execVeMul (core : Nat) (h : Hdr) (b : Word) (s : State) : Answer := .next (s.instr core 2 0x03 h b)
/-- FMA (R170): Vector fused multiply-add, rounded once. -/
def execFma (core : Nat) (h : Hdr) (b : Word) (s : State) : Answer := .next (s.instr core 2 0x04 h b)
/-- VE_MIN (R170): Vector elementwise minimum. -/
def execVeMin (core : Nat) (h : Hdr) (b : Word) (s : State) : Answer := .next (s.instr core 2 0x05 h b)
/-- VE_MAX (R170): Vector elementwise maximum. -/
def execVeMax (core : Nat) (h : Hdr) (b : Word) (s : State) : Answer := .next (s.instr core 2 0x06 h b)
/-- UNARY (R170): Vector negate, absolute value or copy. -/
def execUnary (core : Nat) (h : Hdr) (b : Word) (s : State) : Answer := .next (s.instr core 2 0x07 h b)
/-- BIT (R172): Vector bitwise logic or shift on integer formats. -/
def execBitOp (core : Nat) (h : Hdr) (b : Word) (s : State) : Answer := .next (s.instr core 2 0x08 h b)
/-- VE_CMP (R173): Vector comparison that writes a mask array. -/
def execVeCmp (core : Nat) (h : Hdr) (b : Word) (s : State) : Answer := .next (s.instr core 2 0x09 h b)
/-- CVT (R175): Vector conversion between formats, including MX block scaling. -/
def execCvt (core : Nat) (h : Hdr) (b : Word) (s : State) : Answer := .next (s.instr core 2 0x0A h b)
/-- REDUCE (R174): Vector reduction of groups in a fixed order. -/
def execReduce (core : Nat) (h : Hdr) (b : Word) (s : State) : Answer := .next (s.instr core 2 0x10 h b)
/-- FUNC (R186): Evaluates a loaded function table for each element. -/
def execFuncOp (core : Nat) (h : Hdr) (b : Word) (s : State) : Answer := .next (s.instr core 2 0x20 h b)
/-- FTLOAD (R184): Loads a function-table image into a table slot. -/
def execFtload (core : Nat) (h : Hdr) (b : Word) (s : State) : Answer := .next (s.instr core 2 0x21 h b)
/-- COMPRESS (R182): Packs the active elements and sets a token to their count. -/
def execCompress (core : Nat) (h : Hdr) (b : Word) (s : State) : Answer := .next (s.instr core 2 0x30 h b)
/-- EXPAND (R182): Scatters packed elements to the active positions and sets a token to their count. -/
def execExpand (core : Nat) (h : Hdr) (b : Word) (s : State) : Answer := .next (s.instr core 2 0x31 h b)
/-- SLICE (R188): Splits binary64 or binary32 values into INT8 slice planes, or joins planes back. -/
def execSlice (core : Nat) (h : Hdr) (b : Word) (s : State) : Answer := .next (s.instr core 2 0x38 h b)
/-- COMBINE (R191): Combines wide ACC bands into binary64 or binary32 results. -/
def execCombine (core : Nat) (h : Hdr) (b : Word) (s : State) : Answer := .next (s.instr core 2 0x39 h b)
/-- VSEED (R180): Reseeds the stochastic generator of every lane. -/
def execVseed (core : Nat) (h : Hdr) (b : Word) (s : State) : Answer := .next (s.instr core 2 0x3F h b)
/-- XFER (R200): Issues a batch of stream descriptors through the Ladle. -/
def execXfer (core : Nat) (h : Hdr) (b : Word) (s : State) : Answer := .next (s.instr core 3 0x01 h b)
/-- GATHER (R222): Colander gather of indexed object elements into the Skillet. -/
def execGather (core : Nat) (h : Hdr) (b : Word) (s : State) : Answer := .next (s.instr core 4 0x01 h b)
/-- SCATTER (R222): Colander scatter of Skillet elements to indexed object positions. -/
def execScatter (core : Nat) (h : Hdr) (b : Word) (s : State) : Answer := .next (s.instr core 4 0x02 h b)

end Sys2Proof.Machine
end

