-- ==== Sys2Proof/Machine/HostPort.lean ====
section
/-!
DEFINITION. Answers to the requests that the package sends to the host: granules of the host tier, program loads, boot
and firmware images, and the store copy of an image (R72, R216, R278, R279, R401, R439, R457).
-/

namespace Sys2Proof.Machine

open Sys2Proof

/-- The request of the host port with a tag. -/
def State.hostReq (s : State) (tag : Nat) : Option HostReq := s.hostReqs.find? fun r => r.tag == tag

/-- The request is outstanding no more. -/
def State.dropReq (s : State) (tag : Nat) : State := { s with hostReqs := s.hostReqs.filter fun r => r.tag != tag }

/-- Exactly `n` bytes of an answer. -/
def bytesOf (n : Nat) (d : List Byte) : List Byte := (List.range n).map fun i => d.getD i 0

/-- Runs of bytes in order of their offsets, joined to one run. -/
def joinRuns (runs : List (Nat × List Byte)) : List (Nat × List Byte) :=
  match sortBy (fun (a b : Nat × List Byte) => decide (a.1 ≤ b.1)) runs with
  | [] => []
  | r :: rs => [(r.1, (r :: rs).flatMap (·.2))]

/-! ## Granules (R208, R216, R217, R278) -/

/-- One of the requests of the granule on a tag is answered with its bytes: the last one lets the granule land, or the
store be accepted. -/
def State.granReply (s : State) (n tag : Nat) (r : HostReq) (d : List Byte) : State :=
  let t := vget (s.core n).sm.tags tag
  match t.g with
  | none => s
  | some (e, g) =>
    if !g.hostTags.contains r.tag then s
    else
      let store := g.kind == .store || g.kind == .scatter
      let press := g.home.press
      let s := s.modGran n tag fun g =>
        { g with
          hostTags := g.hostTags.filter fun x => x != r.tag
          data := if store || press then g.data else joinRuns (g.data ++ [(r.off, bytesOf r.len d)]) }
      if 1 < g.hostTags.length then s
      else if store then s.storeDone n tag
      else if e ≠ t.epoch then (s.dropStale n tag).settle n
      else s.arrive n tag

/-- A page of a granule is not mapped. -/
def State.granUnmapped (s : State) (n tag : Nat) (r : HostReq) : State :=
  match (vget (s.core n).sm.tags tag).g with
  | none => s
  | some (_, g) => if g.hostTags.contains r.tag then s.notMapped n tag (max r.off g.obj) else s

/-- A request of a granule fails with another code: the core raises it (R329, R334). -/
def State.granFails (s : State) (n tag : Nat) (r : HostReq) (code : Nat) : State :=
  let t := vget (s.core n).sm.tags tag
  match t.g with
  | none => s
  | some (e, g) =>
    if !g.hostTags.contains r.tag then s
    else if e ≠ t.epoch then s.dropStale n tag
    else (s.granFault n t.col g code (max r.off g.obj)).modSm n fun m => m.freeTag tag

/-! ## Boot and firmware images (R439, R457) -/

/-- A page of an image arrives: it is kept, and the next page is asked for until the image is whole (Table 15.3). -/
def State.imageReply (s : State) (off : Nat) (r : HostReq) (d : List Byte) (owner : Nat → HostOwner) : State :=
  let s := s.modFw fun f => { f with image := f.image.writeN off (bytesOf r.len d), got := off + r.len }
  let need := min (imageLen (s.fw.image.readN 0 4096)) (2 ^ 24)
  if s.fw.got < need then s.askPage 0xFF (r.addr + r.len) (min 4096 (need - s.fw.got)) (owner s.fw.got) else s

/-! ## Requests of the Tongs (R258, R275, R278, R362) -/

/-- A request of the merge buffer fails: the command whose block it is stops with the code, and one that met an unmapped host page is
HELD (R216, R275; DEDUCED, assumption 57). A block that has committed keeps its bytes. -/
def State.mergeFails (s : State) (e : MergeEnt) (r : HostReq) (code : Nat) : State :=
  let mine := s.tongs.merge.find? fun x => x.tag == some r.tag
  let e := mine.getD e
  let s := s.mergeArrives r.tag
  match e.cmd.bind s.getCmd, s.tongs.byIdx e.idx with
  | some c, some o => if c.stoppable ∧ (mine.isSome ∨ r.write = true) then s.copyFails c.acceptNo o.handle code (4096 * e.blk) else s
  | _, _ => s

/-- A copy fails with a code: a move is given up, so that the old home stands, and a command that stages stops (DEDUCED, assumption
57). -/
def State.tongsFails (s : State) (r : HostReq) (code : Nat) : State :=
  match r.owner with
  | .move idx => ((s.giveUpMove idx code).unlocked idx).retryWaits
  | .stage a h => if (s.getCmd a).any fun c => c.stage == .staging then s.copyFails a h code r.off else s
  | .merge e => s.mergeFails e r code
  | _ => s

/-- A request of the Tongs is answered. -/
def State.tongsAnswered (s : State) (r : HostReq) (d : List Byte) : State :=
  if r.write then s
  else match r.owner with
    | .merge _ => s.mergeArrives r.tag
    | w => s.copyArrives w r.off (bytesOf r.len d)

/-! ## The answers -/

/-- A request is answered with data, or with ACCEPTED. -/
def State.hostAnswered (s : State) (r : HostReq) (d : List Byte) (o : GranOutcome) : State :=
  let s := s.dropReq r.tag
  match r.owner with
  | .granule n t => s.granReply n t r d
  | .move _ | .stage _ _ | .merge _ => s.tongsAnswered r d
  | .dropped => s
  | .boot off => s.imageReply off r d .boot
  | .firmware off => if s.fw.busy = 1 then s.imageReply off r d .firmware else s
  | .lid _ => s.storeAnswered true o

/-- The request is one of the host tier: of a granule, of a program load too (R72), or of the Tongs. -/
def HostReq.ofTier (r : HostReq) : Bool :=
  match r.owner with
  | .boot _ | .firmware _ | .lid _ => false
  | _ => true

/-- A request is handled as answered with NOT_MAPPED (R279). -/
def State.hostUnmapped (s : State) (r : HostReq) : State :=
  let s := s.dropReq r.tag
  match r.owner with
  | .granule n t => s.granUnmapped n t r
  | .move _ | .stage _ _ | .merge _ => s.tongsFails r 0x1C
  | .dropped => s
  | .boot _ => s.bootFails
  | .firmware _ => if s.fw.busy = 1 then s.stageFails 6 else s
  | .lid _ => s.storeAnswered false (.ok 0)

/-- A request fails with a code of the link (R329, R334): a core raises it as a fault; another unit's request fails. -/
def State.hostFails (s : State) (r : HostReq) (code : Nat) : State :=
  let s := s.dropReq r.tag
  match r.owner with
  | .granule n t => s.granFails n t r code
  | .move _ | .stage _ _ | .merge _ => s.tongsFails r code
  | .dropped => s
  | .boot _ => s.bootFails
  | .firmware _ => if s.fw.busy = 1 then s.stageFails 6 else s
  | .lid _ => s.storeAnswered false (.ok 0)

/-- The answer to a request with a tag reaches the host port. -/
def State.hostReply (s : State) (v : Via) (mtype : Nat) (write : Bool) (act : State → HostReq → State) : State :=
  let (ok, s) := s.receive v mtype
  if !ok then s
  else match s.hostReq v.tag with
    | none => s
    | some r => if r.write = write then act s r else s

/-- A request has not been answered for 65,536 beats: it has timed out (R338), and is handled as NOT_MAPPED (R278). -/
def State.hostLate (s : State) (tag : Nat) : State :=
  match s.hostReq tag with
  | none => s
  | some r =>
    let s := s.toEdge (r.sentEdge + 65536)
    if s.edge < r.sentEdge + 65536 then s
    else match s.hostReq tag with
      | none => s
      | some r =>
        let ev : LogEv := { code := 0x67, unit := 0xF0, addr := .hostIO r.addr }
        ((((s.tngCnt 23 (b2n r.ofTier)).logEv ev).logEv { ev with code := 0x5C }).dropReq tag).hostUnmapped r

/-! ## The rows -/

/-- HOST_READ_REPLY (R278): data, or none for NOT_MAPPED. -/
def execHostReadReply (v : Via) (data : Option (List Byte)) (s : State) : Answer :=
  .next (s.hostReply v 0x3A false fun s r => match data with
    | some d => s.hostAnswered r d (.ok 0)
    | none => (s.tngCnt 22 (b2n r.ofTier)).hostUnmapped r)

/-- HOST_WRITE_REPLY (R278): ACCEPTED, or NOT_MAPPED. `o` is the outcome of reading the page that a store copy of the Lid writes
next (R401). -/
def execHostWriteReply (v : Via) (accepted : Bool) (o : GranOutcome) (s : State) : Answer :=
  .next (s.hostReply v 0x3B true fun s r => if accepted then s.hostAnswered r [] o else (s.tngCnt 22 (b2n r.ofTier)).hostUnmapped r)

/-- HOST_TIMEOUT (R278): the clock runs to the limit of the request with the tag. -/
def execHostTimeout (tag : Nat) (s : State) : Answer := .next (s.hostLate tag)

end Sys2Proof.Machine
end

