-- ==== Sys2Proof/Machine/Messages.lean ====
section
/-!
DEFINITION. Messages that pass through the package, and the ends of requests that fail on the way: PARITY_NAK, ERROR and
the response timeout (R329, R332 to R334, R338, R344, R505).
-/

namespace Sys2Proof.Machine

open Sys2Proof

/-! ## Forwarding (R332 to R334, R505) -/

/-- A message with DIR and DLC rewritten (Table 11.6: bits 59 and 60). -/
def reroute (m : List Byte) (minus dlc : Bool) : List Byte :=
  let b := bitsOf (leAt m 7 1) 7 5 * 32 + 16 * b2n dlc + 8 * b2n minus + bitsOf (leAt m 7 1) 2 0
  m.take 7 ++ [toB b] ++ m.drop 8

/-- A message for another package leaves its port: whether it goes on. On a MISMATCH port only an ERROR does (R344); its parity is
the destination's to check (R329). -/
def State.transit (s : State) (v : Via) (mtype : Nat) : Bool × State :=
  let s := s.takeRx v mtype
  if (s.port v.port).st = .mismatch ∧ mtype ≠ 0x3E then (false, s.answerError v 0x72 mtype) else (true, s)

/-- A message that a fabric port has received for another package: discarded as invalid (R330), routed onward, or answered
with ERROR. -/
def State.forward (s : State) (port : Nat) (m : List Byte) : State :=
  let t := rxType m
  let v : Via := { port := port, src := rxSrc m, unit := rxSunit m, tag := rxTag m }
  let dst := rxDst m
  if 16 ≤ port ∨ m.length < 16 ∨ bitOf (leAt m 0 8) 58 = true ∨ dst = s.cfg.pkgId then s
  else if rxBad false m then (s.takeRx v t).rxInvalid port v.src
  else
    let (ok, s) := s.transit v t
    if !ok then s
    else match s.nextHop dst (mtypeClass t) (t == 0x3E) (some (port / 4, bitOf (leAt m 0 8) 59, bitOf (leAt m 0 8) 60)) with
      | .deliver => s
      | .to p k minus dlc =>
        s.transmit p { body := .raw (reroute m minus dlc), dst := dst, src := v.src, dunit := bitsOf (leAt m 0 16) 91 84,
                       sunit := v.unit, tag := v.tag, dlc := dlc, dir := minus, dim := k }
      | .fail code k minus => (s.fjlCnt (fabricPort k minus 0) 14 1).answerError v code t
      | .invalid =>
        let s := s.logEv { code := 0x6A, unit := 0xF4, inst := port, pkg := dst }
        if mtypeClass t = 1 then s.answerError v 0x6A t else s

/-! ## Requests of a core (R124, R127) -/

/-- The address of the Exchange instruction that waits for a tag. -/
def CoreSt.pcOfTag (c : CoreSt) (tag : Nat) : Nat :=
  match (vget c.flights 4).find? fun f => f.tags.contains tag with
  | some f => f.e.pc
  | none => 0

/-- A PUT or a GRANT of core `n` fails with a code (R93, R329, R334, R338). -/
def State.coreFails (s : State) (n tag code : Nat) : State :=
  let c := s.core n
  match c.puts.find? fun x => x.tag == tag with
  | some x => s.raiseFault n 5 code x.pc (.skillet x.src)
  | none =>
    if c.ownCredits.any fun x => x.tag == tag && !x.accepted then s.raiseFault n 5 code (c.pcOfTag tag) .none else s

/-- A PUT or a GRANT of core `n` failed parity at its destination: sent once more, and failed at the second time
(R329). -/
def State.coreNak (s : State) (n tag : Nat) : State :=
  let c := s.core n
  match c.puts.find? fun x => x.tag == tag with
  | some x =>
    if 2 ≤ x.tries then s.coreFails n tag 0x68
    else
      let again := fun (y : SentPut) => { y with tries := 2, sentEdge := s.edge }
      (s.modCore n fun c => { c with puts := modFirst (fun y => y.tag == tag) again c.puts }).sendArrival n x
  | none =>
    match c.ownCredits.find? fun x => x.tag == tag && !x.accepted with
    | none => s
    | some x =>
      if 2 ≤ x.tries then s.coreFails n tag 0x68
      else
        let again := fun (y : OwnCredit) => { y with tries := 2 }
        (s.modCore n fun c => { c with ownCredits := modFirst (fun y => y.tag == tag) again c.ownCredits }).sendCredit n x

/-! ## Requests of the Lid and of the command unit (R358, R383, R397) -/

/-- A message of the Lid fails: the secure is abandoned with detail 2, or PAIR waits for its retry. -/
def State.lidFails (s : State) (tag : Nat) : State :=
  if s.lid.pairOut = some tag then s.modLid fun l => { l with pairOut := none }
  else match s.lid.secure with
    | none => s
    | some x => if x.out.contains tag then s.dropSecure x 2 else s

/-- A message of the Lid failed parity at the partner: sent once more, and failed at the second time (R329). -/
def State.lidNak (s : State) (tag : Nat) : State :=
  let send := fun (s : State) (b : Body) =>
    s.sendFabric { body := b, dst := s.lid.partner, dunit := 0xF3, sunit := 0xF3, tag := tag }
  if s.lid.pairOut = some tag then
    if 2 ≤ s.lid.pairTries then s.lidFails tag
    else send (s.modLid fun l => { l with pairTries := 2 }) (.pair s.cfg.pkgId s.power.feedId s.lid.partner s.lid.slotGib)
  else match s.lid.secure with
    | none => s
    | some x =>
      if !x.out.contains tag then s
      else if 2 ≤ x.tries then s.lidFails tag
      else
        send (s.modLid fun l => { l with secure := l.secure.map fun y => { y with tries := 2, sentEdge := s.edge } })
          (s.secureBody x)

/-- A MIRROR has failed with a code of the link: logged (R329, R334). -/
def State.mirrorFails (s : State) (m : MirrorOut) (code : Nat) : State :=
  s.logEv { code := code, unit := 0xF1, pkg := m.dst, acceptNo := m.rec_.acceptNo }

/-- A MIRROR failed parity at the partner: sent once more. A second failure fails this MIRROR with code 0x68 (R329); its record stays
unacknowledged and is sent again under R358. -/
def State.mirrorNak (s : State) (tag : Nat) : State :=
  match s.cmd.mirrors.find? fun m => m.tag == tag with
  | none => s
  | some m =>
    if 2 ≤ m.tries then s.mirrorFails m 0x68
    else
      let s := s.sendFabric { body := .mirror m.rec_, dst := m.dst, dunit := 0xF1, sunit := 0xF1, tag := tag }
      s.modCmdU fun u => { u with mirrors := modFirst (fun x => x.tag == tag) (fun x => { x with tries := 2 }) u.mirrors }

/-- A HOST_READ or HOST_WRITE failed parity at the host: sent once more, and failed at the second time (R329). -/
def State.hostNak (s : State) (sunit tag : Nat) : State :=
  match s.hostReq tag with
  | none => s
  | some r =>
    if 2 ≤ r.tries then s.hostFails r 0x68
    else
      let s : State := { s with hostReqs := modFirst (fun x => x.tag == tag) (fun x => { x with tries := 2, sentEdge := s.edge }) s.hostReqs }
      s.sendHost sunit tag (if r.write then .hostWrite r.addr r.data else .hostRead r.addr r.len)

/-! ## What the three rows do -/

/-- A message to a unit: to a core it waits with the core's die (R331). -/
def State.unitMsg (s : State) (v : Via) (mtype dunit : Nat) (i : Instr) (act : State → State) : State :=
  let (ok, s) := if dunit < 0xC0 then s.receiveCore v mtype dunit i else s.receive v mtype
  if !ok then s
  else if dunit < 0xC0 ∨ [0xF0, 0xF1, 0xF2, 0xF3, 0xFE, 0xFF].contains dunit then act s
  else s.noUnit v mtype dunit

/-- A request of type `mtype` failed parity at its destination (R329). -/
def State.nakked (s : State) (dunit tag mtype : Nat) : State :=
  if mtype = 0x23 ∨ mtype = 0x24 then s.hostNak dunit tag
  else if mtype = 0x10 ∨ mtype = 0x11 then s.coreNak dunit tag
  else if mtype = 0x12 then s.mirrorNak tag
  else s.lidNak tag

/-- A request of type `mtype` was answered with ERROR (R334). -/
def State.failed (s : State) (dunit tag code mtype : Nat) : State :=
  if mtype = 0x23 ∨ mtype = 0x24 then match s.hostReq tag with
    | some r => s.hostFails r code
    | none => s
  else if mtype = 0x10 ∨ mtype = 0x11 then s.coreFails dunit tag code
  else if mtype = 0x12 then match s.cmd.mirrors.find? fun m => m.tag == tag with
    | some m => s.mirrorFails m code
    | none => s
  else s.lidFails tag

/-- The edge at which the request of a unit with a tag was first sent, when it waits for its response (R338). -/
def State.sentAt (s : State) (unit tag : Nat) : Option Nat :=
  if unit < 0xC0 then
    match (s.core unit).puts.find? fun x => x.tag == tag with
    | some x => some x.sentEdge
    | none => ((s.core unit).ownCredits.find? fun x => x.tag == tag && !x.accepted).map (·.sentEdge)
  else if unit = 0xF1 then (s.cmd.mirrors.find? fun m => m.tag == tag).map (·.sentEdge)
  else if s.lid.pairOut = some tag then some s.lid.pairEdge
  else s.lid.secure.bind fun x => if x.out.contains tag then some x.sentEdge else none

/-- A class 1 request has had no response for 65,536 beats (R338). -/
def State.responseLate (s : State) (unit tag : Nat) : State :=
  match s.sentAt unit tag with
  | none => s
  | some e =>
    let s := s.toEdge (e + 65536)
    if s.edge < e + 65536 ∨ s.sentAt unit tag ≠ some e then s
    else if unit < 0xC0 then s.coreFails unit tag 0x67
    else if unit = 0xF1 then s.mirrorRetry tag
    else (s.logEv { code := 0x67, unit := 0xF3, pkg := s.lid.partner }).lidFails tag

/-- A PARITY_NAK reaches a unit (R329). -/
def State.parityNakMsg (s : State) (v : Via) (dunit mtype : Nat) : State :=
  s.unitMsg v 0x3D dunit (.parityNak v dunit mtype) fun s => s.nakked dunit v.tag mtype

/-- An ERROR reaches a unit (R334). -/
def State.errorIn (s : State) (v : Via) (dunit code mtype : Nat) : State :=
  s.unitMsg v 0x3E dunit (.errorMsg v dunit code mtype) fun s => s.failed dunit v.tag code mtype

/-! ## The end of a brown hold (R331, R420) -/

/-- A held message is delivered (R331). It left its port when it was held. -/
def State.redeliver (s : State) (i : Instr) : State :=
  match i with
  | .putMsg v p => s.putMsg { v with port := 17 } p
  | .putAck v c r => s.putAck { v with port := 17 } c r
  | .grantMsg v g => s.grantMsg { v with port := 17 } g
  | .grantAck v c r => s.grantAck { v with port := 17 } c r
  | .parityNak v u t => s.parityNakMsg { v with port := 17 } u t
  | .errorMsg v u code t => s.errorIn { v with port := 17 } u code t
  | _ => s

/-- A die returns to ACTIVE (R420): code 0x81, and work resumes where it stopped. -/
def State.brownClear (s : State) (d : Nat) : State :=
  if (s.die d).st ≠ .brownHold ∨ !s.causesGone d ∨ (s.die d).holdEdge + holdLimit < s.lastRecovery d then s
  else
    let s := s.toEdge (s.lastRecovery d + 1)
    let s := (s.modDie d fun x => { x with st := .active, causes := [] }).logEv { code := 0x81, die := d, unit := 0xF8, inst := d }
    let s := (s.freeHeld d).takeHeld d State.redeliver
    let s := (List.range 48).foldl (fun s i => s.settle (48 * d + i)) s
    s.retryPrepares.lidResume

/-! ## The rows -/

/-- BROWN_HOLD_CLEARED (R420): the clock runs to the beat edge after the last recovery. -/
def execBrownHoldCleared (die : Nat) (s : State) : Answer := .next (s.brownClear die)

/-- MESSAGE_FORWARD (R332): a whole message as a port has received it. -/
def execMessageForward (port : Nat) (bytes : List Byte) (s : State) : Answer := .next (s.forward port bytes)

/-- PARITY_NAK (R329): to the unit that sent a message of type `mtype` with the tag. -/
def execParityNak (v : Via) (dunit mtype : Nat) (s : State) : Answer :=
  .next (s.parityNakMsg v dunit mtype)

/-- ERROR (R334): to the unit that sent a message of type `mtype` with the tag. -/
def execErrorMsg (v : Via) (dunit code mtype : Nat) (s : State) : Answer :=
  .next (s.errorIn v dunit code mtype)

/-- RESPONSE_TIMEOUT (R338): the clock runs to the limit of the request of a unit with a tag. -/
def execResponseTimeout (unit tag : Nat) (s : State) : Answer := .next (s.responseLate unit tag)

end Sys2Proof.Machine
end

