-- ==== Sys2Proof/Machine/Program.lean ====
section
/-!
DEFINITION. The rows of the instructions of the sequencer (R69 to R103): each is its queue code and opcode (Tables 3.4, 3.10, 4.6, 5.11,
6.8, 7.6) given to the operation that all instructions share; what the instruction does is in Machine/Settle.lean and the
files that it imports.
-/

namespace Sys2Proof.Machine

open Sys2Proof

/-- NOP (R99): The sequencer no-operation; only its header fields act. -/
def execNop (core : Nat) (h : Hdr) (b : Word) (s : State) : Answer := .next (s.instr core 0 0x00 h b)
/-- ADD (R99): Sequencer add of two general registers. -/
def execAdd (core : Nat) (h : Hdr) (b : Word) (s : State) : Answer := .next (s.instr core 0 0x01 h b)
/-- SUB (R99): Sequencer subtract of two general registers. -/
def execSub (core : Nat) (h : Hdr) (b : Word) (s : State) : Answer := .next (s.instr core 0 0x02 h b)
/-- MUL (R99): Sequencer multiply giving the low 64 bits. -/
def execMul (core : Nat) (h : Hdr) (b : Word) (s : State) : Answer := .next (s.instr core 0 0x03 h b)
/-- AND (R99): Sequencer bitwise AND. -/
def execAndOp (core : Nat) (h : Hdr) (b : Word) (s : State) : Answer := .next (s.instr core 0 0x04 h b)
/-- OR (R99): Sequencer bitwise OR. -/
def execOrOp (core : Nat) (h : Hdr) (b : Word) (s : State) : Answer := .next (s.instr core 0 0x05 h b)
/-- XOR (R99): Sequencer bitwise XOR. -/
def execXor (core : Nat) (h : Hdr) (b : Word) (s : State) : Answer := .next (s.instr core 0 0x06 h b)
/-- SHL (R99): Sequencer shift left by a register amount. -/
def execShl (core : Nat) (h : Hdr) (b : Word) (s : State) : Answer := .next (s.instr core 0 0x07 h b)
/-- SHR (R99): Sequencer logical shift right by a register amount. -/
def execShr (core : Nat) (h : Hdr) (b : Word) (s : State) : Answer := .next (s.instr core 0 0x08 h b)
/-- SRA (R99): Sequencer arithmetic shift right by a register amount. -/
def execSra (core : Nat) (h : Hdr) (b : Word) (s : State) : Answer := .next (s.instr core 0 0x09 h b)
/-- MIN (R99): Sequencer signed minimum. -/
def execMinOp (core : Nat) (h : Hdr) (b : Word) (s : State) : Answer := .next (s.instr core 0 0x0A h b)
/-- MAX (R99): Sequencer signed maximum. -/
def execMaxOp (core : Nat) (h : Hdr) (b : Word) (s : State) : Answer := .next (s.instr core 0 0x0B h b)
/-- ADDI (R99): Sequencer add of a sign-extended immediate. -/
def execAddi (core : Nat) (h : Hdr) (b : Word) (s : State) : Answer := .next (s.instr core 0 0x10 h b)
/-- ANDI (R99): Sequencer AND with a zero-extended immediate. -/
def execAndi (core : Nat) (h : Hdr) (b : Word) (s : State) : Answer := .next (s.instr core 0 0x11 h b)
/-- SHLI (R99): Sequencer shift left by an immediate amount. -/
def execShli (core : Nat) (h : Hdr) (b : Word) (s : State) : Answer := .next (s.instr core 0 0x12 h b)
/-- SHRI (R99): Sequencer logical shift right by an immediate amount. -/
def execShri (core : Nat) (h : Hdr) (b : Word) (s : State) : Answer := .next (s.instr core 0 0x13 h b)
/-- MOVI (R99): Sequencer load of a sign-extended 48-bit immediate. -/
def execMovi (core : Nat) (h : Hdr) (b : Word) (s : State) : Answer := .next (s.instr core 0 0x14 h b)
/-- MOVH (R99): Sequencer insertion of 16 bits into the top of a register. -/
def execMovh (core : Nat) (h : Hdr) (b : Word) (s : State) : Answer := .next (s.instr core 0 0x15 h b)
/-- CMP (R100): Sequencer register comparison that sets a predicate. -/
def execCmp (core : Nat) (h : Hdr) (b : Word) (s : State) : Answer := .next (s.instr core 0 0x20 h b)
/-- CMPI (R100): Sequencer comparison with an immediate that sets a predicate. -/
def execCmpi (core : Nat) (h : Hdr) (b : Word) (s : State) : Answer := .next (s.instr core 0 0x21 h b)
/-- PLOG (R99): Sequencer logical combination of two predicates. -/
def execPlog (core : Nat) (h : Hdr) (b : Word) (s : State) : Answer := .next (s.instr core 0 0x22 h b)
/-- BEATGE (R99): Sets a predicate when the beat count has reached the base plus an offset. -/
def execBeatge (core : Nat) (h : Hdr) (b : Word) (s : State) : Answer := .next (s.instr core 0 0x23 h b)
/-- TSET (R82): Sets a token counter to an immediate value. -/
def execTset (core : Nat) (h : Hdr) (b : Word) (s : State) : Answer := .next (s.instr core 0 0x30 h b)
/-- TADD (R82): Adds an immediate to a token counter, with fault 0x4A on overflow. -/
def execTadd (core : Nat) (h : Hdr) (b : Word) (s : State) : Answer := .next (s.instr core 0 0x31 h b)
/-- TGET (R99): Reads a token counter into a general register. -/
def execTget (core : Nat) (h : Hdr) (b : Word) (s : State) : Answer := .next (s.instr core 0 0x32 h b)
/-- TWAIT (R99): Waits until a token counter reaches a value, consuming nothing. -/
def execTwait (core : Nat) (h : Hdr) (b : Word) (s : State) : Answer := .next (s.instr core 0 0x33 h b)
/-- BR (R86): Relative branch, conditional through the predicate. -/
def execBr (core : Nat) (h : Hdr) (b : Word) (s : State) : Answer := .next (s.instr core 0 0x40 h b)
/-- JR (R86): Absolute jump to a register address. -/
def execJr (core : Nat) (h : Hdr) (b : Word) (s : State) : Answer := .next (s.instr core 0 0x41 h b)
/-- CALL (R86): Pushes a return address and branches relative, with fault 0x49 on stack overflow. -/
def execCallOp (core : Nat) (h : Hdr) (b : Word) (s : State) : Answer := .next (s.instr core 0 0x42 h b)
/-- RET (R86): Pops a return address, with fault 0x49 on an empty stack. -/
def execRet (core : Nat) (h : Hdr) (b : Word) (s : State) : Answer := .next (s.instr core 0 0x43 h b)
/-- LOOP (R86): Decrements a register and branches while it is nonzero. -/
def execLoopOp (core : Nat) (h : Hdr) (b : Word) (s : State) : Answer := .next (s.instr core 0 0x44 h b)
/-- RACE (R87): Takes a race slot and issues a deadline-bounded Ladle fetch, or loses at dispatch if the deadline has passed. -/
def execRace (core : Nat) (h : Hdr) (b : Word) (s : State) : Answer := .next (s.instr core 0 0x48 h b)
/-- RJOIN (R90): Resolves a race slot, continuing on WON or branching to the alternate block on LOST. -/
def execRjoin (core : Nat) (h : Hdr) (b : Word) (s : State) : Answer := .next (s.instr core 0 0x49 h b)
/-- LD (R99): Loads a 64-bit Skillet word into a register. -/
def execLd (core : Nat) (h : Hdr) (b : Word) (s : State) : Answer := .next (s.instr core 0 0x50 h b)
/-- ST (R99): Stores a register as a 64-bit Skillet word. -/
def execSt (core : Nat) (h : Hdr) (b : Word) (s : State) : Answer := .next (s.instr core 0 0x51 h b)
/-- GETS (R101): Reads a special value such as the core number or the beat count. -/
def execGets (core : Nat) (h : Hdr) (b : Word) (s : State) : Answer := .next (s.instr core 0 0x52 h b)
/-- FENCE (R84): Stops dispatch until the named queues, and optionally remote writes, have completed. -/
def execFence (core : Nat) (h : Hdr) (b : Word) (s : State) : Answer := .next (s.instr core 0 0x60 h b)
/-- END (R97): Stops dispatch and puts the core in DRAINING; races still pending are cancelled. -/
def execEndProg (core : Nat) (h : Hdr) (b : Word) (s : State) : Answer := .next (s.instr core 0 0x70 h b)
/-- ABORT (R97): Raises fault 0x4C with a 16-bit detail. -/
def execAbortProg (core : Nat) (h : Hdr) (b : Word) (s : State) : Answer := .next (s.instr core 0 0x71 h b)

end Sys2Proof.Machine
end

