-- ==== Sys2Proof/Machine/Dispatch.lean ====
section
/-!
DEFINITION. The meaning of every command: one arm for each constructor.
-/

namespace Sys2Proof.Machine

open Sys2Proof

/-- The effect of a command on everything but the queue. -/
def exec (i : Instr) (s : State) : Host.Outcome State Fault Refusal :=
  match i with
  | .csrRead v off width => Sys2Proof.Machine.execCsrRead v off width s
  | .csrWrite v off width value => Sys2Proof.Machine.execCsrWrite v off width value s
  | .d2dRetransmit link half => Sys2Proof.Machine.execD2dRetransmit link half s
  | .pllLock => Sys2Proof.Machine.execPllLock s
  | .refclkLost => Sys2Proof.Machine.execRefclkLost s
  | .beatSyncPulse cyc => Sys2Proof.Machine.execBeatSyncPulse cyc s
  | .syncLost => Sys2Proof.Machine.execSyncLost s
  | .holdoverExpired => Sys2Proof.Machine.execHoldoverExpired s
  | .noRoot => Sys2Proof.Machine.execNoRoot s
  | .beatSeed v value => Sys2Proof.Machine.execBeatSeed v value s
  | .seedCompare => Sys2Proof.Machine.execSeedCompare s
  | .marker port h cyc value depth hold d => Sys2Proof.Machine.execMarker port h cyc value depth hold d s
  | .markerSend => Sys2Proof.Machine.execMarkerSend s
  | .rdv core h b => Sys2Proof.Machine.execRdv core h b s
  | .rendezvousLead a k => Sys2Proof.Machine.execRendezvousLead a k s
  | .slip v gid k rk cause arr => Sys2Proof.Machine.execSlip v gid k rk cause arr s
  | .ready v gid k => Sys2Proof.Machine.execReady v gid k s
  | .rendezvousReached a => Sys2Proof.Machine.execRendezvousReached a s
  | .startBeatReached core => Sys2Proof.Machine.execStartBeatReached core s
  | .nop core h b => Sys2Proof.Machine.execNop core h b s
  | .add core h b => Sys2Proof.Machine.execAdd core h b s
  | .sub core h b => Sys2Proof.Machine.execSub core h b s
  | .mul core h b => Sys2Proof.Machine.execMul core h b s
  | .andOp core h b => Sys2Proof.Machine.execAndOp core h b s
  | .orOp core h b => Sys2Proof.Machine.execOrOp core h b s
  | .xor core h b => Sys2Proof.Machine.execXor core h b s
  | .shl core h b => Sys2Proof.Machine.execShl core h b s
  | .shr core h b => Sys2Proof.Machine.execShr core h b s
  | .sra core h b => Sys2Proof.Machine.execSra core h b s
  | .minOp core h b => Sys2Proof.Machine.execMinOp core h b s
  | .maxOp core h b => Sys2Proof.Machine.execMaxOp core h b s
  | .addi core h b => Sys2Proof.Machine.execAddi core h b s
  | .andi core h b => Sys2Proof.Machine.execAndi core h b s
  | .shli core h b => Sys2Proof.Machine.execShli core h b s
  | .shri core h b => Sys2Proof.Machine.execShri core h b s
  | .movi core h b => Sys2Proof.Machine.execMovi core h b s
  | .movh core h b => Sys2Proof.Machine.execMovh core h b s
  | .cmp core h b => Sys2Proof.Machine.execCmp core h b s
  | .cmpi core h b => Sys2Proof.Machine.execCmpi core h b s
  | .plog core h b => Sys2Proof.Machine.execPlog core h b s
  | .beatge core h b => Sys2Proof.Machine.execBeatge core h b s
  | .tset core h b => Sys2Proof.Machine.execTset core h b s
  | .tadd core h b => Sys2Proof.Machine.execTadd core h b s
  | .tget core h b => Sys2Proof.Machine.execTget core h b s
  | .twait core h b => Sys2Proof.Machine.execTwait core h b s
  | .br core h b => Sys2Proof.Machine.execBr core h b s
  | .jr core h b => Sys2Proof.Machine.execJr core h b s
  | .callOp core h b => Sys2Proof.Machine.execCallOp core h b s
  | .ret core h b => Sys2Proof.Machine.execRet core h b s
  | .loopOp core h b => Sys2Proof.Machine.execLoopOp core h b s
  | .race core h b => Sys2Proof.Machine.execRace core h b s
  | .rjoin core h b => Sys2Proof.Machine.execRjoin core h b s
  | .ld core h b => Sys2Proof.Machine.execLd core h b s
  | .st core h b => Sys2Proof.Machine.execSt core h b s
  | .gets core h b => Sys2Proof.Machine.execGets core h b s
  | .fence core h b => Sys2Proof.Machine.execFence core h b s
  | .endProg core h b => Sys2Proof.Machine.execEndProg core h b s
  | .abortProg core h b => Sys2Proof.Machine.execAbortProg core h b s
  | .ibufRefill core => Sys2Proof.Machine.execIbufRefill core s
  | .instructionComplete core q idx rereads => Sys2Proof.Machine.execInstructionComplete core q idx rereads s
  | .raceDeadline core slot => Sys2Proof.Machine.execRaceDeadline core slot s
  | .faultRaise core q code pc addr detail => Sys2Proof.Machine.execFaultRaise core q code pc addr detail s
  | .abortingComplete core => Sys2Proof.Machine.execAbortingComplete core s
  | .drainComplete core => Sys2Proof.Machine.execDrainComplete core s
  | .noProgress core => Sys2Proof.Machine.execNoProgress core s
  | .wopen core h b => Sys2Proof.Machine.execWopen core h b s
  | .wclose core h b => Sys2Proof.Machine.execWclose core h b s
  | .grant core h b => Sys2Proof.Machine.execGrant core h b s
  | .put core h b => Sys2Proof.Machine.execPut core h b s
  | .putMsg v p => Sys2Proof.Machine.execPutMsg v p s
  | .putAck v core r => Sys2Proof.Machine.execPutAck v core r s
  | .grantMsg v g => Sys2Proof.Machine.execGrantMsg v g s
  | .grantAck v core r => Sys2Proof.Machine.execGrantAck v core r s
  | .grantResend core tag => Sys2Proof.Machine.execGrantResend core tag s
  | .mshape core h b => Sys2Proof.Machine.execMshape core h b s
  | .sload core h b => Sys2Proof.Machine.execSload core h b s
  | .ifill core h b => Sys2Proof.Machine.execIfill core h b s
  | .mmul core h b => Sys2Proof.Machine.execMmul core h b s
  | .accst core h b => Sys2Proof.Machine.execAccst core h b s
  | .veAdd core h b => Sys2Proof.Machine.execVeAdd core h b s
  | .veSub core h b => Sys2Proof.Machine.execVeSub core h b s
  | .veMul core h b => Sys2Proof.Machine.execVeMul core h b s
  | .fma core h b => Sys2Proof.Machine.execFma core h b s
  | .veMin core h b => Sys2Proof.Machine.execVeMin core h b s
  | .veMax core h b => Sys2Proof.Machine.execVeMax core h b s
  | .unary core h b => Sys2Proof.Machine.execUnary core h b s
  | .bitOp core h b => Sys2Proof.Machine.execBitOp core h b s
  | .veCmp core h b => Sys2Proof.Machine.execVeCmp core h b s
  | .cvt core h b => Sys2Proof.Machine.execCvt core h b s
  | .reduce core h b => Sys2Proof.Machine.execReduce core h b s
  | .funcOp core h b => Sys2Proof.Machine.execFuncOp core h b s
  | .ftload core h b => Sys2Proof.Machine.execFtload core h b s
  | .compress core h b => Sys2Proof.Machine.execCompress core h b s
  | .expand core h b => Sys2Proof.Machine.execExpand core h b s
  | .slice core h b => Sys2Proof.Machine.execSlice core h b s
  | .combine core h b => Sys2Proof.Machine.execCombine core h b s
  | .vseed core h b => Sys2Proof.Machine.execVseed core h b s
  | .xfer core h b => Sys2Proof.Machine.execXfer core h b s
  | .gather core h b => Sys2Proof.Machine.execGather core h b s
  | .scatter core h b => Sys2Proof.Machine.execScatter core h b s
  | .granuleLanded core tag o => Sys2Proof.Machine.execGranuleLanded core tag o s
  | .storeAccepted core tag o => Sys2Proof.Machine.execStoreAccepted core tag o s
  | .watchCloseAck core id idx => Sys2Proof.Machine.execWatchCloseAck core id idx s
  | .whiskTileWritten core => Sys2Proof.Machine.execWhiskTileWritten core s
  | .ldlRegWrite v core tier enable burst rate => Sys2Proof.Machine.execLdlRegWrite v core tier enable burst rate s
  | .create v m => Sys2Proof.Machine.execCreate v m s
  | .createFillComplete a => Sys2Proof.Machine.execCreateFillComplete a s
  | .freeObj v m => Sys2Proof.Machine.execFreeObj v m s
  | .moveObj v m => Sys2Proof.Machine.execMoveObj v m s
  | .evict v m => Sys2Proof.Machine.execEvict v m s
  | .setflags v m => Sys2Proof.Machine.execSetflags v m s
  | .objGrant v m => Sys2Proof.Machine.execObjGrant v m s
  | .revoke v m => Sys2Proof.Machine.execRevoke v m s
  | .query v m => Sys2Proof.Machine.execQuery v m s
  | .mapObj v m => Sys2Proof.Machine.execMapObj v m s
  | .poolAdd v m => Sys2Proof.Machine.execPoolAdd v m s
  | .moveCopyDone idx rereads o => Sys2Proof.Machine.execMoveCopyDone idx rereads o s
  | .flipComplete idx => Sys2Proof.Machine.execFlipComplete idx s
  | .extentRelease id => Sys2Proof.Machine.execExtentRelease id s
  | .grantInvalComplete a => Sys2Proof.Machine.execGrantInvalComplete a s
  | .allocationTimeout a auto => Sys2Proof.Machine.execAllocationTimeout a auto s
  | .quotaLimitWrite v client tier auto limit => Sys2Proof.Machine.execQuotaLimitWrite v client tier auto limit s
  | .hostReadReply v data => Sys2Proof.Machine.execHostReadReply v data s
  | .hostWriteReply v accepted o => Sys2Proof.Machine.execHostWriteReply v accepted o s
  | .hostTimeout tag => Sys2Proof.Machine.execHostTimeout tag s
  | .rowReconstructed slice bank row seg f => Sys2Proof.Machine.execRowReconstructed slice bank row seg f s
  | .rowSpareCopyDone slice bank row => Sys2Proof.Machine.execRowSpareCopyDone slice bank row s
  | .patrolRead slice rereads bad => Sys2Proof.Machine.execPatrolRead slice rereads bad s
  | .eccReportPoll n => Sys2Proof.Machine.execEccReportPoll n s
  | .testComplete l errors => Sys2Proof.Machine.execTestComplete l errors s
  | .deferredTestStart l => Sys2Proof.Machine.execDeferredTestStart l s
  | .bankSpareCopyDone slice found => Sys2Proof.Machine.execBankSpareCopyDone slice found s
  | .sliceRetired slice => Sys2Proof.Machine.execSliceRetired slice s
  | .lbistSliceStart core clock => Sys2Proof.Machine.execLbistSliceStart core clock s
  | .lbistSliceComplete core ok => Sys2Proof.Machine.execLbistSliceComplete core ok s
  | .dataFlit port raw => Sys2Proof.Machine.execDataFlit port raw s
  | .idleFlit port h => Sys2Proof.Machine.execIdleFlit port h s
  | .nak port h seq => Sys2Proof.Machine.execNak port h seq s
  | .nakRepeat port => Sys2Proof.Machine.execNakRepeat port s
  | .replayTimeout port => Sys2Proof.Machine.execReplayTimeout port s
  | .keepalive port h k => Sys2Proof.Machine.execKeepalive port h k s
  | .keepaliveSend => Sys2Proof.Machine.execKeepaliveSend s
  | .keepaliveLost port => Sys2Proof.Machine.execKeepaliveLost port s
  | .ident port flit => Sys2Proof.Machine.execIdent port flit s
  | .echo port own cycles hold => Sys2Proof.Machine.execEcho port own cycles hold s
  | .width port h mask => Sys2Proof.Machine.execWidth port h mask s
  | .farEndDetect port => Sys2Proof.Machine.execFarEndDetect port s
  | .detectDone port lanes => Sys2Proof.Machine.execDetectDone port lanes s
  | .equaliseDone port lanes => Sys2Proof.Machine.execEqualiseDone port lanes s
  | .lockDone port lanes => Sys2Proof.Machine.execLockDone port lanes s
  | .identifyDone port lanes expect => Sys2Proof.Machine.execIdentifyDone port lanes expect s
  | .trainingStepTimeout port => Sys2Proof.Machine.execTrainingStepTimeout port s
  | .trainingRetry port => Sys2Proof.Machine.execTrainingRetry port s
  | .lossOfLock port lanes => Sys2Proof.Machine.execLossOfLock port lanes s
  | .retrain v port laneOff => Sys2Proof.Machine.execRetrain v port laneOff s
  | .laneOffWrite v port laneOff => Sys2Proof.Machine.execLaneOffWrite v port laneOff s
  | .messageForward port bytes => Sys2Proof.Machine.execMessageForward port bytes s
  | .parityNak v dunit mtype => Sys2Proof.Machine.execParityNak v dunit mtype s
  | .errorMsg v dunit code mtype => Sys2Proof.Machine.execErrorMsg v dunit code mtype s
  | .responseTimeout unit tag => Sys2Proof.Machine.execResponseTimeout unit tag s
  | .runCmd v m => Sys2Proof.Machine.execRunCmd v m s
  | .groupCmd v m => Sys2Proof.Machine.execGroupCmd v m s
  | .preempt v m => Sys2Proof.Machine.execPreempt v m s
  | .resume v m => Sys2Proof.Machine.execResume v m s
  | .jobEnd v m => Sys2Proof.Machine.execJobEnd v m s
  | .mirror v r => Sys2Proof.Machine.execMirror v r s
  | .mirrorAck v accepted => Sys2Proof.Machine.execMirrorAck v accepted s
  | .mirrorRetry tag => Sys2Proof.Machine.execMirrorRetry tag s
  | .commandStart part => Sys2Proof.Machine.execCommandStart part s
  | .clearingComplete core => Sys2Proof.Machine.execClearingComplete core s
  | .programLoaded core => Sys2Proof.Machine.execProgramLoaded core s
  | .localCommit a => Sys2Proof.Machine.execLocalCommit a s
  | .vote v vote => Sys2Proof.Machine.execVote v vote s
  | .voteTimeout a => Sys2Proof.Machine.execVoteTimeout a s
  | .commitMirrorTimeout a => Sys2Proof.Machine.execCommitMirrorTimeout a s
  | .decision v d arr => Sys2Proof.Machine.execDecision v d arr s
  | .decisionBeat a => Sys2Proof.Machine.execDecisionBeat a s
  | .rerunStart a => Sys2Proof.Machine.execRerunStart a s
  | .inDoubt a => Sys2Proof.Machine.execInDoubt a s
  | .inDoubtQuery a => Sys2Proof.Machine.execInDoubtQuery a s
  | .journalReplay copy keep => Sys2Proof.Machine.execJournalReplay copy keep s
  | .pair v pkg feed partner slotGib => Sys2Proof.Machine.execPair v pkg feed partner slotGib s
  | .pairRetry => Sys2Proof.Machine.execPairRetry s
  | .freeze part => Sys2Proof.Machine.execFreeze part s
  | .slotWrite v part slot page gen data => Sys2Proof.Machine.execSlotWrite v part slot page gen data s
  | .seal v what part slot bytes => Sys2Proof.Machine.execSeal v what part slot bytes s
  | .slotAck v code sub slots o => Sys2Proof.Machine.execSlotAck v code sub slots o s
  | .nvmeCompletion ok o => Sys2Proof.Machine.execNvmeCompletion ok o s
  | .lidStoreAck v part gen => Sys2Proof.Machine.execLidStoreAck v part gen s
  | .riskDecay => Sys2Proof.Machine.execRiskDecay s
  | .restore v source part => Sys2Proof.Machine.execRestore v source part s
  | .restorationComplete part ok => Sys2Proof.Machine.execRestorationComplete part ok s
  | .railWarning rail => Sys2Proof.Machine.execRailWarning rail s
  | .brownHoldEnter => Sys2Proof.Machine.execBrownHoldEnter s
  | .railRecovered rail => Sys2Proof.Machine.execRailRecovered rail s
  | .brownHoldCleared die => Sys2Proof.Machine.execBrownHoldCleared die s
  | .degradedHold die => Sys2Proof.Machine.execDegradedHold die s
  | .railBelowReset rail => Sys2Proof.Machine.execRailBelowReset rail s
  | .governorPeriod watts volts => Sys2Proof.Machine.execGovernorPeriod watts volts s
  | .hostModeWrite v mode => Sys2Proof.Machine.execHostModeWrite v mode s
  | .thermalPeriod die temp => Sys2Proof.Machine.execThermalPeriod die temp s
  | .thermalWarning die temp => Sys2Proof.Machine.execThermalWarning die temp s
  | .thermalTrip die temp => Sys2Proof.Machine.execThermalTrip die temp s
  | .coreReset v core => Sys2Proof.Machine.execCoreReset v core s
  | .regionReset v region => Sys2Proof.Machine.execRegionReset v region s
  | .dieReset v die => Sys2Proof.Machine.execDieReset v die s
  | .blockResetComplete block => Sys2Proof.Machine.execBlockResetComplete block s
  | .packageReset powerOn ns taken => Sys2Proof.Machine.execPackageReset powerOn ns taken s
  | .resetRelease boot clk feed slot keep => Sys2Proof.Machine.execResetRelease boot clk feed slot keep s
  | .fwWatchdog => Sys2Proof.Machine.execFwWatchdog s
  | .bootStepDone info => Sys2Proof.Machine.execBootStepDone info s
  | .bootRetry => Sys2Proof.Machine.execBootRetry s
  | .cfgStage v length => Sys2Proof.Machine.execCfgStage v length s
  | .cfgStageWritten => Sys2Proof.Machine.execCfgStageWritten s
  | .activationAnnounce v gen => Sys2Proof.Machine.execActivationAnnounce v gen s
  | .cfgActivated => Sys2Proof.Machine.execCfgActivated s
  | .fwStage v => Sys2Proof.Machine.execFwStage v s
  | .fwStageComplete flashOk => Sys2Proof.Machine.execFwStageComplete flashOk s
  | .fwActivate v => Sys2Proof.Machine.execFwActivate v s
  | .arbCommit v => Sys2Proof.Machine.execArbCommit v s
  | .attestRequest v core tables nobj => Sys2Proof.Machine.execAttestRequest v core tables nobj s
  | .attestDone => Sys2Proof.Machine.execAttestDone s
  | .sidebandWrite addr off data => Sys2Proof.Machine.execSidebandWrite addr off data s
  | .sidebandRead addr n => Sys2Proof.Machine.execSidebandRead addr n s
  | .trayModeWrite addr value => Sys2Proof.Machine.execTrayModeWrite addr value s
  | .setdasa static dynamic => Sys2Proof.Machine.execSetdasa static dynamic s
  | .hltClr v bank target => Sys2Proof.Machine.execHltClr v bank target s
  | .counterClear bank target => Sys2Proof.Machine.execCounterClear bank target s
  | .notBeforeReached core q => Sys2Proof.Machine.execNotBeforeReached core q s
  | .levelGain core => Sys2Proof.Machine.execLevelGain core s
  | .killed a => Sys2Proof.Machine.execKilled a s
  | .stagedCopyComplete a h rereads o => Sys2Proof.Machine.execStagedCopyComplete a h rereads o s
  | .pciePortRetrained width rate flashOk => Sys2Proof.Machine.execPciePortRetrained width rate flashOk s
  | .fwOperationComplete => Sys2Proof.Machine.execFwOperationComplete s

end Sys2Proof.Machine
end

