-- ==== Sys2Proof/Safety.lean ====
section
/-!
DEFINITION. What a good state of the package is, and when a command can act at once, in the terms that claims use.
-/

namespace Sys2Proof.Machine

open Sys2Proof

/-! ## The log -/

/-- The log ring holds at most 4,096 records, newest first, whose SEQ count down by one from HLT_LOG_NEXT (R491, R492). -/
def LogSt.ringOk (l : LogSt) : Prop :=
  l.ring.length ≤ 4096 ∧ l.ring.length ≤ l.next ∧
    ∀ (i : Nat) (r : LogRec), l.ring[i]? = some r → r.seq + i + 1 = l.next

/-! ## A sequencer that can go on -/

/-- A core's engine queues are empty, its engines and stream engines have nothing in execution, no signal is still to act,
and no race is pending. -/
def CoreSt.enginesIdle (c : CoreSt) : Bool :=
  c.queues.toList.all (·.isEmpty) && c.flights.toList.all (·.isEmpty) && c.sm.xfers.isEmpty && c.sm.cols.isEmpty
    && c.sigs.isEmpty && c.races.toList.all (·.st != .pending)

/-- The instruction (q, op, h, b) as core `n` dispatches it now: with its PC, its registers and its predicate (R77). -/
def State.entryAt (s : State) (n q op : Nat) (h : Hdr) (b : Word) : Entry :=
  { q := q, op := op, h := h, b := b, pc := (s.core n).pc, null := (s.core n).getP h.pred.toNat == h.pneg
    regs := (s.core n).readRegs }

/-- Core `n` fetches (q, op, h, b) now: it is RUNNING with no instruction waiting, the word at its PC is that instruction,
and the line of the PC is held (R74, R75). -/
def State.fetchesNow (s : State) (n q op : Nat) (h : Hdr) (b : Word) : Bool :=
  decide (n < 192) && (s.core n).st == .running && (s.core n).cur == none && decide ((s.core n).pc < (s.core n).progEnd)
    && (s.core n).lineHeld && (s.core n).skillet.readLE (s.core n).pc 16 == instWord q op h b

/-- The not-before beat of a header is reached, and its token wait is satisfied (R56, R80). -/
def State.waitsMet (s : State) (n : Nat) (h : Hdr) : Bool :=
  (h.nb == 0 || decide ((s.core n).beatBase + h.nb.toNat ≤ s.now)) && decide (h.wval.toNat ≤ vget (s.core n).t h.wtok.toNat)

/-- A core as an instruction leaves the sequencer: the results that it reads are ready, the line of its PC is the most
recently used, and its token wait is consumed (R74, R80, R85). -/
def CoreSt.taken (c : CoreSt) (h : Hdr) : CoreSt :=
  { c.fetched with t := vmod c.t h.wtok.toNat fun v => v - h.wval.toNat, cur := none, progress := true }

/-- A token counter takes a value (R82). -/
def CoreSt.setTok (c : CoreSt) (k v : Nat) : CoreSt := { c with t := vset c.t k v }

/-- The header signal of an instruction stays within a token counter's range (R81). -/
def CoreSt.signalFits (c : CoreSt) (h : Hdr) : Bool := decide (vget c.t h.stok.toNat + h.sval.toNat ≤ 65535)

/-- A core once an instruction has completed: the PC is `pc`, and the header signal has acted (R81). -/
def CoreSt.passed (c : CoreSt) (h : Hdr) (pc : Nat) : CoreSt :=
  { c.goTo pc with t := vset c.t h.stok.toNat (vget c.t h.stok.toNat + h.sval.toNat) }

/-- A core once the header signal of an instruction of an engine has acted (R81). -/
def CoreSt.signalled (c : CoreSt) (h : Hdr) : CoreSt := c.setTok h.stok.toNat (vget c.t h.stok.toNat + h.sval.toNat)

/-- Core `n` can execute the sequencer instruction (op, h, b) at once: it fetches it now, the encoding is legal, its
waits are met, its signal fits, and the engines have no work. -/
def State.seqReady (s : State) (n op : Nat) (h : Hdr) (b : Word) : Bool :=
  s.fetchesNow n 0 op h b && !seqBad (s.entryAt n 0 op h b) && s.waitsMet n h && ((s.core n).taken h).signalFits h
    && (s.core n).enginesIdle

/-- The predicate of a header is 1 on core `n` (R78). -/
def State.predOn (s : State) (n : Nat) (h : Hdr) : Bool := (s.core n).getP h.pred.toNat != h.pneg

/-- The commands of the sequencer's instructions, with their opcodes (Table 3.10). -/
def seqRows : List ((Nat → Hdr → Word → Instr) × Nat) :=
  [(.nop, 0x00), (.add, 0x01), (.sub, 0x02), (.mul, 0x03), (.andOp, 0x04), (.orOp, 0x05), (.xor, 0x06), (.shl, 0x07),
   (.shr, 0x08), (.sra, 0x09), (.minOp, 0x0A), (.maxOp, 0x0B), (.addi, 0x10), (.andi, 0x11), (.shli, 0x12), (.shri, 0x13),
   (.movi, 0x14), (.movh, 0x15), (.cmp, 0x20), (.cmpi, 0x21), (.plog, 0x22), (.beatge, 0x23), (.tset, 0x30), (.tadd, 0x31),
   (.tget, 0x32), (.twait, 0x33), (.br, 0x40), (.jr, 0x41), (.callOp, 0x42), (.ret, 0x43), (.loopOp, 0x44), (.race, 0x48),
   (.rjoin, 0x49), (.ld, 0x50), (.st, 0x51), (.gets, 0x52), (.fence, 0x60), (.endProg, 0x70), (.abortProg, 0x71)]

/-- The state as a sequencer instruction takes effect: its line is the most recently used, its waits are consumed, and it
is the current instruction (R77, R80). -/
def State.dispatching (s : State) (n op : Nat) (h : Hdr) (b : Word) : State :=
  let e := s.entryAt n 0 op h b
  s.modCore n fun c => { c.taken h with cur := some { e with h := { e.h with wval := 0, nb := 0 } } }

/-- Core `n` runs a command that is no participant of a group and is not ending. -/
def State.runsAlone (s : State) (n : Nat) : Bool :=
  (s.core n).cmd.any fun a => (s.getCmd a).any fun k => k.group.isNone && k.stage != .aborting

/-- Core `n` as an engine instruction leaves the sequencer and its queue to begin: its waits are consumed, and the PC is
at the next instruction (R77, R80). -/
def State.issued (s : State) (n : Nat) (h : Hdr) : State :=
  s.modCore n fun c => { c.taken h with pc := c.pc + 16 }

/-- Core `n` can dispatch the instruction (op, h, b) to queue `q`, and its engine can begin it, at once: it fetches it
now, the encoding is legal, its waits are met, its die is not in BROWN_HOLD, the unit that executes it is ready, its
predicate is 1, and the engines have no work. -/
def State.engReady (s : State) (n q op : Nat) (h : Hdr) (b : Word) : Bool :=
  s.fetchesNow n q op h b && decide (1 ≤ q) && decide (q ≤ 5) && !s.headBad n (s.entryAt n q op h b) && s.waitsMet n h
    && (s.die (coreDie n)).st != .brownHold && !s.unitHeld n (s.entryAt n q op h b) && s.predOn n h
    && (s.core n).enginesIdle

/-! ## Messages -/

/-- A message of a type is acted on: its parity is good, its port may carry the type, and is not in MISMATCH (R329, R330,
R344). -/
def State.admits (s : State) (v : Via) (mtype : Nat) : Bool :=
  s.rxGood v mtype && !(decide (v.port < 16) && (s.port v.port).st == .mismatch)
    && (decide (17 ≤ v.port) || mtypeOk (v.port == 16) mtype)

/-- A message for core `n` is acted on now: its core is in service and its die is not in BROWN_HOLD (R331). -/
def State.admitsCore (s : State) (v : Via) (mtype n : Nat) : Bool :=
  s.admits v mtype && !s.noCore n && (s.die (coreDie n)).st != .brownHold

/-- The reply to a control-space access that came as `v`. -/
def State.csrAnswer (s : State) (v : Via) (code : Nat) : OutItem :=
  .msg 16 { body := .csrReply code 0, src := s.pkgIdField, dunit := 0xFF, sunit := 0xFE, tag := v.tag }

/-- Engine `q` of a core executes the one instruction `f`, whose signal fits; the sequencer waits for nothing, and the
other engines have no work. -/
def CoreSt.executes (c : CoreSt) (q : Nat) (f : Flight) : Bool :=
  c.busy && c.cur.isNone && vget c.flights (q - 1) == [f] && !f.done && !f.e.null && f.setTok.isNone
    && c.signalFits f.e.h && ({ c with flights := vset c.flights (q - 1) [] } : CoreSt).enginesIdle

/-- It waits for nothing but the answer to `tag`. -/
def CoreSt.awaits (c : CoreSt) (q tag : Nat) (f : Flight) : Bool := c.executes q f && f.tags == [tag]

/-- A core whose engine `q` has completed `f` and has no other work. -/
def CoreSt.completed (c : CoreSt) (q : Nat) (f : Flight) : CoreSt :=
  { c.signalled f.e.h with flights := vset c.flights (q - 1) [], progress := true }

/-- A core is busy, waits for nothing, and its engines have no work. -/
def CoreSt.quiet (c : CoreSt) : Bool := c.busy && c.cur.isNone && c.enginesIdle

/-! ## Streams -/

/-- A core waits only for its XFER `x`, which is a batch with the one descriptor `d` left, and that one has issued. -/
def CoreSt.onlyXfer (c : CoreSt) (x : XferSt) (d : DescSt) : Bool :=
  c.busy && c.cur.isNone && c.sm.xfers == [x] && x.descs == [d] && x.nextDesc == x.count && x.e.race.isNone && d.issued
    && d.again == [] && !d.d.sig && !d.d.msig && c.signalFits x.e.h && ({ c with sm := { c.sm with xfers := [] } } : CoreSt).enginesIdle

/-- A core whose XFER `x` completes, with LDL_CNT raised as listed: index and amount. -/
def CoreSt.xferEnds (c : CoreSt) (x : XferSt) (cnt : List (Nat × Nat)) : CoreSt :=
  { c.signalled x.e.h with
    progress := true
    sm := { c.sm with
      xfers := []
      ldlCnt := cnt.foldl (fun v p => vmod v p.1 fun a => satAdd 64 a p.2) c.sm.ldlCnt } }

/-- Granule `g` is in flight on tag `tag` of core `n` with its tag's epoch, belongs to descriptor `d` of XFER `x`, and its
tier takes it now: no slice that it reaches is in reset, held or gone, and no segment that it reads is being rebuilt. -/
def State.granMeets (s : State) (n tag : Nat) (x : XferSt) (d : DescSt) (g : Granule) : Bool :=
  decide (n < 192) && decide (tag < 64) && (vget (s.core n).sm.tags tag).g == some ((vget (s.core n).sm.tags tag).epoch, g)
    && !(vget (s.core n).sm.tags tag).col && g.xfer == x.id && g.desc == d.idx && g.hostTags == [] && g.recon.isNone
    && !(s.core n).sm.whiskQ.contains tag && s.accessState n g == 0
    && (decide (g.tier ≠ 0) || (s.granSegs g).all fun k => (s.rebuildOf k).isNone)

/-! ## Commands and object requests -/

/-- The message `m` on the host port comes from a client of its partition, and no check of R355 refuses it. -/
def State.hears (s : State) (v : Via) (m : List Byte) : Bool :=
  let h := msgHdr m
  s.admits v 0x20 && decide (64 ≤ m.length) && (vget s.cmd.clients h.client).valid && (vget s.cmd.clients h.client).part == h.part
    && (s.malformed m).isNone && (s.refusal m).isNone

/-- The message `m` is also new and in order, and accepted at once: the package is ready and without a partner. -/
def State.takes (s : State) (v : Via) (m : List Byte) : Bool :=
  s.hears v m && s.power.ready && decide ((vget s.cmd.clients (msgHdr m).client).nextReq ≤ (msgHdr m).req) && s.unpaired

/-- The object request of opcode `op` in `m` is accepted and starts at once, and no check of R504 refuses it: the package
knows no other command, no job is ending, and no entry is being created. -/
def State.takesObject (s : State) (v : Via) (m : List Byte) (op : Nat) : Bool :=
  s.takes v m && leAt m 0 1 == 3 && objOp m == op && s.cmd.cmds.isEmpty
    && (s.part (msgHdr m).part).ctxs.all (fun x => x.ending.isEmpty) && s.tongs.objs.all (fun o => o.st != .creating)
    && (s.objRefusal (s.newCmd v.tag s.cmd.nextAccept m) (m.drop (64 + 8 * leAt m 6 2))).isNone

/-- The Tongs can allocate `n` extents of a tier to a client at once (R266): the tier is present, and neither quota nor tier
falls short. -/
def State.affords (s : State) (client tier : Nat) (press raw : Bool) (n : Nat) : Bool :=
  (s.tierRefusal tier press n).isNone
    && s.short { client := client, tier := tier, press := press, named := raw, n := n } == (0, 0)

/-- Nothing of the Tongs or the command unit waits for an event of an object: no command is queued or committing, no
allocation waits, and no slice is retiring. -/
def State.calm (s : State) : Bool :=
  s.cmd.cmds.all (fun c => c.stage != .queued && c.stage != .committing) && s.tongs.waits.isEmpty
    && s.regions.toList.all (fun g => g.slice != 1)

/-- No copy of the Tongs or of the Lid runs, and no allocation waits. -/
def State.noCopies (s : State) : Bool :=
  s.tongs.moves.isEmpty && s.tongs.waits.isEmpty && s.lid.secure.isNone && s.lid.frozen.isEmpty && s.lid.flash.isNone && s.lid.store.isNone

/-- The open object request `c` of opcode `op` is known by its number and can end at once: the package has no partner, and
no job of its partition is ending. -/
def State.objectOpen (s : State) (c : Cmd) (op : Nat) : Bool :=
  s.getCmd c.acceptNo == some c && c.kind == 3 && c.stage == .object && c.objReq.op == op && c.group.isNone && !c.restored
    && c.preempts.isEmpty && s.unpaired && (s.part c.part).ctxs.all fun x => x.ending.isEmpty

/-- A REPLY to the host. -/
def State.replyItem (s : State) (tag : Nat) (r : Reply) : OutItem :=
  .msg 16 { body := .reply r, src := s.pkgIdField, dunit := 0xFF, sunit := 0xF1, tag := tag }

end Sys2Proof.Machine
end

