-- ==== Sys2Proof/Certificates/Slice0/Obligations.lean ====
section
/-!
DEFINITION. The statements about the package that are to be proved.
-/

open Sys2Proof Sys2Proof.Machine

/-! ## Every command -/

/-- A step with a command at the front of the queue runs that command with the rest of the queue. The model's choices: The
queue is the model's own (assumption 13). -/
def Obligations.StepRunsFrontCommand : Prop :=
  ∀ (c : Instr) (rest : List Instr) (s : State), s.pending = c :: rest →
    step s = exec c { s with pending := rest }

/-! ## The sequencer (R69 to R103)

Each statement is about a core whose engines have no work, so that nothing but the instruction itself happens: its line
becomes the most recently used and its token wait is consumed (taken), its result is written, and the PC and the header
signal act (passed). The equality says that nothing else of the package changes. -/

/-- The register operations of format A and the operations with an immediate: gRD takes the result that Table 3.10 gives,
from gRA and gRB, or from gRA and the body (R99); that of MUL is usable after 3 cycles (R85). These commands complete: ADD,
SUB, MUL, AND, OR, XOR, SHL, SHR, SRA, MIN, MAX, ADDI, ANDI, SHLI, SHRI, MOVI, MOVH. -/
def Obligations.AluResults : Prop :=
  (∀ (s : State) (n : Nat) (h : Hdr) (b : Word) (row : (Nat → Hdr → Word → Instr) × Nat × (Word → Word → Word)),
    row ∈ ([(.add, 0x01, fun x y => x + y), (.sub, 0x02, fun x y => x - y), (.mul, 0x03, fun x y => x * y),
      (.andOp, 0x04, fun x y => x &&& y), (.orOp, 0x05, fun x y => x ||| y), (.xor, 0x06, fun x y => x ^^^ y),
      (.shl, 0x07, fun x y => x <<< (y.toNat % 64)), (.shr, 0x08, fun x y => x >>> (y.toNat % 64)),
      (.sra, 0x09, fun x y => x.sshiftRight (y.toNat % 64)), (.minOp, 0x0A, fun x y => if x.toInt ≤ y.toInt then x else y),
      (.maxOp, 0x0B, fun x y => if x.toInt ≤ y.toInt then y else x)] :
      List ((Nat → Hdr → Word → Instr) × Nat × (Word → Word → Word))) →
    s.seqReady n row.2.1 h b = true → s.predOn n h = true →
    exec (row.1 n h b) s = .next (s.modCore n fun c =>
      (((c.taken h).setG (fld b 63 59) (row.2.2 (c.getG (fld b 58 54)) (c.getG (fld b 53 49)))).resultIn n row.2.1
        (fld b 63 59)).passed h (c.pc + 16)))
  ∧ (∀ (s : State) (n : Nat) (h : Hdr) (b : Word) (row : (Nat → Hdr → Word → Instr) × Nat × (Word → Word → Word)),
    row ∈ ([(.addi, 0x10, fun x b => x + (b.extractLsb' 0 32).signExtend 64),
      (.andi, 0x11, fun x b => x &&& (b.extractLsb' 0 32).setWidth 64),
      (.shli, 0x12, fun x b => x <<< (b.extractLsb' 0 6).toNat), (.shri, 0x13, fun x b => x >>> (b.extractLsb' 0 6).toNat),
      (.movi, 0x14, fun _ b => (b.extractLsb' 0 48).signExtend 64),
      (.movh, 0x15, fun x b => (x &&& (0x0000FFFFFFFFFFFF : Word)) ||| (b <<< 48))] :
      List ((Nat → Hdr → Word → Instr) × Nat × (Word → Word → Word))) →
    s.seqReady n row.2.1 h b = true → s.predOn n h = true →
    exec (row.1 n h b) s = .next (s.modCore n fun c =>
      ((c.taken h).setG (fld b 63 59) (row.2.2 (c.getG (fld b 58 54)) b)).passed h (c.pc + 16)))

/-- CMP and CMPI: pPD takes the test that COND names in Table 3.11, of gRA with gRB or with sext(IMM32); the values 0b110 and
0b111 raise fault 0x48 (R100). PLOG and BEATGE: pPD takes pPA LOP pPB, or whether the beat count has reached SEQ_BEAT_BASE +
IMM32[23:0] (R99). These commands complete: CMP, CMPI, PLOG, BEATGE. -/
def Obligations.PredicateRegisterResults : Prop :=
  ((∀ (s : State) (n : Nat) (h : Hdr) (b : Word) (row : Nat × (Word → Word → Bool)),
    row ∈ ([(0, fun x y => decide (x = y)), (1, fun x y => decide (x ≠ y)), (2, fun x y => decide (x.toInt < y.toInt)),
      (3, fun x y => decide (y.toInt ≤ x.toInt)), (4, fun x y => decide (x.toNat < y.toNat)),
      (5, fun x y => decide (y.toNat ≤ x.toNat))] : List (Nat × (Word → Word → Bool))) →
    fld b 47 45 = row.1 → s.predOn n h = true →
    (s.seqReady n 0x20 h b = true → exec (.cmp n h b) s = .next (s.modCore n fun c =>
      ((c.taken h).setP (fld b 61 59) (row.2 (c.getG (fld b 58 54)) (c.getG (fld b 53 49)))).passed h (c.pc + 16)))
    ∧ (s.seqReady n 0x21 h b = true → exec (.cmpi n h b) s = .next (s.modCore n fun c =>
      ((c.taken h).setP (fld b 61 59) (row.2 (c.getG (fld b 58 54)) ((b.extractLsb' 0 32).signExtend 64))).passed h
        (c.pc + 16))))
  ∧ ∀ (s : State) (n : Nat) (h : Hdr) (b : Word), 6 ≤ fld b 47 45 → ∀ row ∈ ([(.cmp, 0x20), (.cmpi, 0x21)] :
    List ((Nat → Hdr → Word → Instr) × Nat)), s.fetchesNow n 0 row.2 h b = true →
    exec (row.1 n h b) s = .next ((s.modCore n CoreSt.fetched).raiseFault n 0 0x48 (s.core n).pc .none))
  ∧ (∀ (s : State) (n : Nat) (h : Hdr) (b : Word), s.predOn n h = true →
    (∀ row ∈ ([(0, fun x y => x && y), (1, fun x y => x || y), (2, fun x y => xor x y), (3, fun x y => x && !y)] :
      List (Nat × (Bool → Bool → Bool))), fld b 38 37 = row.1 → s.seqReady n 0x22 h b = true →
      exec (.plog n h b) s = .next (s.modCore n fun c =>
        ((c.taken h).setP (fld b 61 59) (row.2 (c.getP (fld b 44 42)) (c.getP (fld b 41 39)))).passed h (c.pc + 16)))
    ∧ (s.seqReady n 0x23 h b = true → exec (.beatge n h b) s = .next (s.modCore n fun c =>
      ((c.taken h).setP (fld b 61 59) (decide (c.beatBase + fld b 23 0 ≤ s.beat.count))).passed h (c.pc + 16))))

/-- Writes to g0 and p0 are discarded, g0 reads 0 and p0 reads 1 (R70): an instruction whose destination is g0 or p0 leaves
every register as it was, g0 as an operand is 0, and a predicate field of 0 executes the instruction unless PNEG inverts it.
-/
def Obligations.ConstantRegisters : Prop :=
  ∀ (s : State) (n : Nat) (h : Hdr) (b : Word), s.predOn n h = true →
    (∀ row ∈ ([(.add, 0x01), (.sub, 0x02), (.mul, 0x03), (.andOp, 0x04), (.orOp, 0x05), (.xor, 0x06), (.shl, 0x07), (.shr, 0x08),
        (.sra, 0x09), (.minOp, 0x0A), (.maxOp, 0x0B), (.addi, 0x10), (.andi, 0x11), (.shli, 0x12), (.shri, 0x13), (.movi, 0x14),
        (.movh, 0x15), (.tget, 0x32), (.gets, 0x52)] : List ((Nat → Hdr → Word → Instr) × Nat)),
      fld b 63 59 = 0 → s.seqReady n row.2 h b = true → exec (row.1 n h b) s = .next (s.modCore n fun c => (c.taken h).passed h (c.pc + 16)))
    ∧ (∀ row ∈ ([(.cmp, 0x20), (.cmpi, 0x21), (.plog, 0x22), (.beatge, 0x23)] : List ((Nat → Hdr → Word → Instr) × Nat)),
      fld b 61 59 = 0 → s.seqReady n row.2 h b = true → exec (row.1 n h b) s = .next (s.modCore n fun c => (c.taken h).passed h (c.pc + 16)))
    ∧ (fld b 58 54 = 0 → s.seqReady n 0x10 h b = true → exec (.addi n h b) s = .next (s.modCore n fun c =>
      ((c.taken h).setG (fld b 63 59) ((b.extractLsb' 0 32).signExtend 64)).passed h (c.pc + 16)))
    ∧ (∀ a, a = ((s.core n).getG (fld b 58 54) + (b.extractLsb' 0 32).signExtend 64).toNat → a % 8 = 0 → a ≤ 0x7FFFF8 →
      fld b 63 59 = 0 → s.seqReady n 0x50 h b = true → exec (.ld n h b) s = .next (s.modCore n fun c => (c.taken h).passed h (c.pc + 16)))
    ∧ (fld b 58 54 = 0 → s.seqReady n 0x44 h b = true → exec (.loopOp n h b) s = .next (s.modCore n fun c =>
      (c.taken h).passed h (c.pc + 16)))
    ∧ (s.core n).getG 0 = 0 ∧ (s.core n).getP 0 = true ∧ (h.pred = 0 → h.pneg = false)

/-- TSET, TADD, TGET and TWAIT: t[TK] takes IMM16 or t[TK] + IMM16 where that is at most 65,535, gRD takes t[TK], and TWAIT
goes on once t[TK] ≥ IMM16, consuming nothing (R82, R99). The header wait is consumed first. These commands complete: TSET,
TADD, TGET, TWAIT. The model's choices: That the header wait is consumed as the instruction begins is DEDUCED (assumption
43). -/
def Obligations.TokenResults : Prop :=
  ∀ (s : State) (n : Nat) (h : Hdr) (b : Word), s.predOn n h = true →
    let tk := fld b 53 48
    let held := vget ((s.core n).taken h).t tk
    (s.seqReady n 0x30 h b = true → (((s.core n).taken h).setTok tk (fld b 15 0)).signalFits h = true →
      exec (.tset n h b) s = .next (s.modCore n fun c => ((c.taken h).setTok tk (fld b 15 0)).passed h (c.pc + 16)))
    ∧ (s.seqReady n 0x31 h b = true → held + fld b 15 0 ≤ 65535 →
      (((s.core n).taken h).setTok tk (held + fld b 15 0)).signalFits h = true →
      exec (.tadd n h b) s = .next (s.modCore n fun c =>
        ((c.taken h).setTok tk (held + fld b 15 0)).passed h (c.pc + 16)))
    ∧ (s.seqReady n 0x32 h b = true → exec (.tget n h b) s = .next (s.modCore n fun c =>
      ((c.taken h).setG (fld b 63 59) (.ofNat 64 held)).passed h (c.pc + 16)))
    ∧ (s.seqReady n 0x33 h b = true → fld b 15 0 ≤ held →
      exec (.twait n h b) s = .next (s.modCore n fun c => (c.taken h).passed h (c.pc + 16)))

/-- NOP, FENCE with nothing outstanding, BR, JR, CALL, RET and LOOP: where the PC goes, what the call stack and the counted
register become (R84, R86). A relative target is the instruction's address + 16 × REL32, as 64 bits. These commands complete:
NOP, FENCE, BR, JR, CALL, RET, LOOP. The model's choices: LOOP on g0 falls through by assumption 43. -/
def Obligations.ControlFlowResults : Prop :=
  ∀ (s : State) (n : Nat) (h : Hdr) (b : Word), s.predOn n h = true →
    let target := fun (c : CoreSt) => (((c.pc : Int) + 16 * (b.extractLsb' 0 32).toInt) % 2 ^ 64).toNat
    (s.seqReady n 0x00 h b = true → exec (.nop n h b) s = .next (s.modCore n fun c => (c.taken h).passed h (c.pc + 16)))
    ∧ (s.seqReady n 0x60 h b = true → (fld b 6 6 = 1 → (s.core n).puts = []) →
      exec (.fence n h b) s = .next (s.modCore n fun c => (c.taken h).passed h (c.pc + 16)))
    ∧ (s.seqReady n 0x40 h b = true → exec (.br n h b) s = .next (s.modCore n fun c => (c.taken h).passed h (target c)))
    ∧ (s.seqReady n 0x41 h b = true → ((s.core n).getG (fld b 58 54)).toNat % 16 = 0 →
      exec (.jr n h b) s = .next (s.modCore n fun c => (c.taken h).passed h (c.getG (fld b 58 54)).toNat))
    ∧ (s.seqReady n 0x42 h b = true → (s.core n).calls.length < 16 → exec (.callOp n h b) s = .next (s.modCore n fun c =>
      ({ c.taken h with calls := (c.pc + 16) :: c.calls }).passed h (target c)))
    ∧ (∀ a as, s.seqReady n 0x43 h b = true → (s.core n).calls = a :: as →
      exec (.ret n h b) s = .next (s.modCore n fun c => ({ c.taken h with calls := as }).passed h a))
    ∧ (s.seqReady n 0x44 h b = true → exec (.loopOp n h b) s = .next (s.modCore n fun c =>
      ((c.taken h).setG (fld b 58 54) (c.getG (fld b 58 54) - 1)).passed h
        (if fld b 58 54 ≠ 0 ∧ c.getG (fld b 58 54) ≠ 1 then target c else c.pc + 16)))

/-- LD, ST and GETS at a legal address or index: gRD takes the 64-bit Skillet word at gRA + sext(IMM32), that word takes gRD,
or gRD takes the special value of Table 3.12; another index of GETS raises fault 0x48 (R99, R101). These commands complete:
LD, ST, GETS. -/
def Obligations.LoadStoreResults : Prop :=
  ∀ (s : State) (n : Nat) (h : Hdr) (b : Word) (a : Nat), s.predOn n h = true →
    a = ((s.core n).getG (fld b 58 54) + (b.extractLsb' 0 32).signExtend 64).toNat →
    (s.seqReady n 0x50 h b = true → a % 8 = 0 → a ≤ 0x7FFFF8 → exec (.ld n h b) s = .next (s.modCore n fun c =>
      (((c.taken h).setG (fld b 63 59) (.ofNat 64 (c.skillet.readLE a 8))).resultIn n 0x50 (fld b 63 59)).passed h (c.pc + 16)))
    ∧ (s.seqReady n 0x51 h b = true → a % 8 = 0 → a ≤ 0x7FFFF8 → (s.core n).progEnd ≤ a →
      exec (.st n h b) s = .next (s.modCore n fun c => ({ c.taken h with
        skillet := c.skillet.writeLE a 8 (c.getG (fld b 63 59)).toNat }).passed h (c.pc + 16)))
    ∧ (s.seqReady n 0x52 h b = true → ∀ row ∈ [(0, n), (1, s.cfg.pkgId), (2, s.beat.count), (3, (s.core n).beatBase),
      (4, (s.core n).part), (5, 0x100000), (6, (s.core n).paramLen), (7, (s.core n).pc)], fld b 31 0 = row.1 →
      exec (.gets n h b) s = .next (s.modCore n fun c =>
        ((c.taken h).setG (fld b 63 59) (.ofNat 64 row.2)).passed h (c.pc + 16)))
    ∧ (8 ≤ fld b 31 0 → s.fetchesNow n 0 0x52 h b = true →
      exec (.gets n h b) s = .next ((s.modCore n CoreSt.fetched).raiseFault n 0 0x48 (s.core n).pc .none))

/-- ST stores 8 bytes: they read back as gRD, least significant byte at the address gRA + sext(IMM32), and every other
Skillet byte reads as before. -/
def Obligations.StoreFrame : Prop :=
  ∀ (s : State) (n : Nat) (h : Hdr) (b : Word) (a : Nat), s.predOn n h = true → s.seqReady n 0x51 h b = true →
    a = ((s.core n).getG (fld b 58 54) + (b.extractLsb' 0 32).signExtend 64).toNat → a % 8 = 0 → a ≤ 0x7FFFF8 →
    (s.core n).progEnd ≤ a → (s.core n).skillet.wf = true →
    ∃ t, exec (.st n h b) s = .next t ∧ (t.core n).skillet.wf = true
      ∧ (t.core n).skillet.readLE a 8 = ((s.core n).getG (fld b 63 59)).toNat
      ∧ (∀ x, x < a ∨ a + 8 ≤ x → (t.core n).skillet.read x = (s.core n).skillet.read x)
      ∧ (∀ m, m ≠ n → t.core m = s.core m)

/-- END puts the core in DRAINING with every race slot FREE, and ABORT raises fault 0x4C with its 16-bit immediate as the
detail (R91, R97). The races of a core whose engines have no work are resolved already. These commands complete: END, ABORT.
-/
def Obligations.EndAndAbort : Prop :=
  ∀ (s : State) (n : Nat) (h : Hdr) (b : Word), s.predOn n h = true →
    (s.seqReady n 0x70 h b = true → exec (.endProg n h b) s = .next (s.modCore n fun c =>
      ({ c.taken h with st := .draining, races := Vector.replicate 4 {} }).passed h (c.pc + 16)))
    ∧ (s.seqReady n 0x71 h b = true → s.runsAlone n = true → exec (.abortProg n h b) s =
      .next ((s.dispatching n 0x71 h b).raiseFaultD n 0 0x4C (s.core n).pc .none (fld b 15 0)))

/-- The joins of a race: a WON slot becomes FREE and execution goes on after RJOIN, a LOST slot becomes FREE and execution
goes on at the alternate address; and a RACE on a FREE slot whose deadline beat is reached is LOST at dispatch, with no fetch
issued (R88, R90). These commands complete: RACE, RJOIN. -/
def Obligations.RaceResults : Prop :=
  ∀ (s : State) (n : Nat) (h : Hdr) (b : Word), s.predOn n h = true →
    let k := fld b 63 62
    let slot := vget (s.core n).races k
    (s.seqReady n 0x49 h b = true → slot.st = .won → exec (.rjoin n h b) s = .next (s.modCore n fun c =>
      ((c.taken h).setRace k .free).passed h (c.pc + 16)))
    ∧ (s.seqReady n 0x49 h b = true → slot.st = .lost → exec (.rjoin n h b) s = .next (s.modCore n fun c =>
      ((c.taken h).setRace k .free).passed h slot.alt))
    ∧ (∀ a, s.seqReady n 0x48 h b = true → slot.st = .free → a = ((s.core n).getG (fld b 58 54)).toNat → a % 64 = 0 →
      a + 64 ≤ 0x800000 → raceDescBad ((s.core n).skillet.readN a 64) = false →
      (s.core n).beatBase + fld b 47 24 ≤ s.beat.count →
      ∃ t, exec (.race n h b) s = .next t ∧ (vget (t.core n).races k).st = .lost ∧ (t.core n).pc = (s.core n).pc + 16
        ∧ (vget (t.core n).races k).alt = (((s.core n).pc + 16 * (b.extractLsb' 0 24).toInt : Int) % 2 ^ 64).toNat
        ∧ (t.core n).seqCnt = bumpBy (s.core n).seqCnt 2 1 ∧ (t.core n).sm = (s.core n).sm
        ∧ (t.core n).skillet = (s.core n).skillet ∧ ∀ i, vget (t.core n).queues i = [])

/-- An instruction whose predicate is 0 performs no operation: its wait and its signal act, the PC goes on, and it is counted
in SEQ_CNT_9 (R78). -/
def Obligations.PredicatedOff : Prop :=
  ∀ (s : State) (n : Nat) (h : Hdr) (b : Word) (row : (Nat → Hdr → Word → Instr) × Nat),
    row ∈ seqRows →
    s.seqReady n row.2 h b = true → s.predOn n h = false →
    exec (row.1 n h b) s = .next (s.modCore n fun c => ((c.taken h).seqBump 9 1).passed h (c.pc + 16))

/-- Where sequencer instructions trap: each raises the fault that Table 3.8 names, and does nothing else. An illegal one
raises fault 0x48, before its waits are evaluated, and a PC outside the program region raises fault 0x4D at fetch (R74, R76).
A word whose queue code or opcode no table defines raises fault 0x48 too, at dispatch or at the head of its queue, whichever
row fetches it (R75, R76; that any of the rows fetches it is assumption 44). -/
def Obligations.SequencerTraps : Prop :=
  (∀ (s : State) (n : Nat) (h : Hdr) (b : Word) (row : (Nat → Hdr → Word → Instr) × Nat × Nat × LogAddr), s.runsAlone n = true →
    s.seqReady n row.2.1 h b = true → s.predOn n h = true →
    let c := (s.core n).taken h
    let ra := (c.getG (fld b 58 54)).toNat
    let a := (c.getG (fld b 58 54) + (b.extractLsb' 0 32).signExtend 64).toNat
    let slot := (vget c.races (fld b 63 62)).st
    (row = (.tadd, 0x31, 0x4A, .none) ∧ 65535 < vget c.t (fld b 53 48) + fld b 15 0
      ∨ row = (.jr, 0x41, 0x15, .skillet ra) ∧ ra % 16 ≠ 0
      ∨ row = (.callOp, 0x42, 0x49, .none) ∧ 16 ≤ c.calls.length
      ∨ row = (.ret, 0x43, 0x49, .none) ∧ c.calls = []
      ∨ row = (.race, 0x48, 0x4B, .none) ∧ (slot = .won ∨ slot = .lost)
      ∨ row = (.rjoin, 0x49, 0x4B, .none) ∧ slot = .free
      ∨ row = (.ld, 0x50, 0x15, .skillet a) ∧ (a % 8 ≠ 0 ∨ 0x7FFFF8 < a)
      ∨ row = (.st, 0x51, 0x15, .skillet a) ∧ (a % 8 ≠ 0 ∨ 0x7FFFF8 < a)
      ∨ row = (.st, 0x51, 0x16, .skillet a) ∧ a % 8 = 0 ∧ a < (s.core n).progEnd ∧ a ≤ 0x7FFFF8) →
    exec (row.1 n h b) s = .next ((s.dispatching n row.2.1 h b).raiseFault n 0 row.2.2.1 (s.core n).pc row.2.2.2))
  ∧ (∀ (s : State) (n : Nat) (h : Hdr) (b : Word) (row : (Nat → Hdr → Word → Instr) × Nat),
    row ∈ seqRows →
    (s.fetchesNow n 0 row.2 h b = true → seqBad (s.entryAt n 0 row.2 h b) = true →
      exec (row.1 n h b) s = .next ((s.modCore n CoreSt.fetched).raiseFault n 0 0x48 (s.core n).pc .none))
    ∧ ((s.core n).fetches = true → (s.core n).progEnd ≤ (s.core n).pc →
      exec (row.1 n h b) s = .next (s.raiseFault n 0 0x4D (s.core n).pc .none))
    ∧ (let w := (s.core n).skillet.readLE (s.core n).pc 16
       (s.core n).fetches = true → (s.core n).pc < (s.core n).progEnd → (s.core n).lineHeld = true → opDefined (wordQueue w) (wordOp w) = false →
      (wordQueue w = 0 ∨ 5 < wordQueue w → exec (row.1 n h b) s =
        .next ((s.modCore n CoreSt.fetched).raiseFault n (wordQueue w) 0x48 (s.core n).pc .none))
      ∧ (1 ≤ wordQueue w → wordQueue w ≤ 5 → n < 192 → (s.core n).enginesIdle = true → s.runsAlone n = true → ∃ t, exec (row.1 n h b) s = .next t
        ∧ (t.core n).st = .aborting ∧ (t.core n).faultCode = 0x48 ∧ (t.core n).faultQueue = wordQueue w ∧ (t.core n).faultValid = true
        ∧ (t.core n).faultPc = bitsOf (s.core n).pc 22 4)))

/-- A fault stops its command: one log record, SEQ_FAULT, every core of the command ABORTING with empty queues and FREE race
slots, every other core as it was, and the command ABORTING with the code (R93). This command completes: FAULT. -/
def Obligations.FaultStopsCommand : Prop :=
  ∀ (s : State) (n q code pc a : Nat) (addr : LogAddr) (detail : Nat) (k : Cmd), n < 192 → (s.core n).busy = true →
    (s.core n).cmd = some a → s.getCmd a = some k → k.group = none → k.stage ≠ .aborting → code ≠ 0x20 → code ≠ 0x24 →
    ∃ t, exec (.faultRaise n q code pc addr detail) s = .next t
      ∧ (∀ m < 192, (s.core m).cmd = some a → (s.core m).busy = true → (t.core m).st = .aborting ∧ (t.core m).cur = none
        ∧ (∀ i, vget (t.core m).queues i = []) ∧ (∀ i, vget (t.core m).flights i = [])
        ∧ (∀ i < 4, (vget (t.core m).races i).st = .free) ∧ (t.core m).abortCode = code)
      ∧ (∀ m < 192, (s.core m).cmd ≠ some a → t.core m = s.core m)
      ∧ (t.core n).faultCode = code ∧ (t.core n).faultQueue = q ∧ (t.core n).faultValid = true
      ∧ (t.core n).faultPc = bitsOf pc 22 4
      ∧ t.log = (s.logEv { coreEv n q code with
          pc := bitsOf pc 22 4, addr := addr, acceptNo := a, sub := bitsOf detail 7 0, cause := bitsOf detail 15 8 }).log
      ∧ (∃ k', t.getCmd a = some k' ∧ k'.stage = .aborting ∧ k'.code = code) ∧ t.beat = s.beat ∧ t.tongs = s.tongs

/-! ## The engines of a core (R120 to R195)

Each statement is about a core whose engines have no work and that can dispatch the instruction and begin it at once
(engReady). What a begin computes is what the rule says of the instruction; the instruction then is in execution, with no
signal yet, until INSTRUCTION_COMPLETE or the answers to its messages complete it. -/

/-- The matrix engine's instructions begin: MSHAPE, SLOAD, IFILL, MMUL and ACCST with operands that their rules allow (R137,
R145 to R147, R150). MSHAPE completes at once and signals; the columns of an MMUL are still to enter the array. These
commands complete: MSHAPE, SLOAD, MMUL. The model's choices: ME_CNT_12 counts every MSHAPE, by assumption 40. -/
def Obligations.MatrixEngineBegins : Prop :=
  ∀ (s : State) (n : Nat) (h : Hdr) (b : Word),
    let c := s.core n
    let reg := fun hi lo => (c.getG (fld b hi lo)).toNat
    let e := fun op => s.entryAt n 1 op h b
    let runs := fun op left (me : MeSt) => (.next ((s.issued n h).modCore n fun c =>
      { c with me := me, flights := vset c.flights 0 [{ e := e op, left := left }] }) : Answer)
    (s.engReady n 1 0x01 h b = true → (c.taken h).signalFits h = true → exec (.mshape n h b) s = .next (s.modCore n fun c =>
      (({ c.taken h with me := { c.me with
        shape := fld b 63 62, active := Vector.replicate 4 {}, shadow := Vector.replicate 4 {}, cnt := bump c.me.cnt 12 } }).passed h
          (c.pc + 16))))
    ∧ (∀ kb fmt len sc, s.engReady n 1 0x02 h b = true → fmt = fld b 61 58 → kb = fld b 57 52 →
      len = kb * 128 * fmtBits fmt → sc = (if meScaled fmt then 32 * kb else 0) →
      reg 51 47 + len ≤ 0x800000 → (sc ≠ 0 → reg 46 42 + sc ≤ 0x800000) →
      let tile := c.skillet.readN (reg 51 47) len
      let set : StatSet := { st := .loading, fmt := fmt, kblk := kb, tile := tile, scales := c.skillet.readN (reg 46 42) sc }
      exec (.sload n h b) s = runs 0x02 0 (({ c.me with shadow := vset c.me.shadow (fld b 63 62) set } : MeSt).bump 5
          (kb * 32 / meE fmt + (if meScaled fmt then ceilDiv kb 2 else 0))))
    ∧ (∀ x : MmSt, s.engReady n 1 0x04 h b = true →
      let sets := spatula (e 0x04) c.me
      let subs := (List.range 4).filter fun q => bitOf (fld b 47 44) q
      x = mmRows (e 0x04) c.me sets.1 → x.past = false →
      (∀ q ∈ subs, (vget sets.1 q).st = .loaded ∧ meClass (vget sets.1 q).fmt = meClass (fld b 43 40)) →
      exec (.mmul n h b) s = runs 0x04 (fld b 55 48) ((((({ c.me with active := sets.1, shadow := sets.2, acc := x.acc } : MeSt).bump 1
          (fld b 55 48)).bump 2 (fld b 55 48 * subs.length)).bump 3 (if fld b 39 39 = 0 then 0 else subs.length)).bump 10
          x.inf |>.bump 11 x.nan))

/-- IFILL puts the elements and scales that its fields name into the buffer, and ACCST copies whole ACC rows to the Skillet
at gRA with row pitch gRB (R148, R149, R153). These commands complete: IFILL, ACCST. -/
def Obligations.FillAndStoreBegin : Prop :=
  ∀ (s : State) (n : Nat) (h : Hdr) (b : Word),
    let c := s.core n
    let reg := fun hi lo => (c.getG (fld b hi lo)).toNat
    (∀ span sc, s.engReady n 1 0x03 h b = true →
      sc = (if meScaled (fld b 30 27) then fld b 55 48 * (fld b 39 31 * meE (fld b 30 27) / 32) else 0) →
      span = (if fld b 26 26 = 0 then (fld b 55 48 - 1) * reg 20 16 + 2 * fld b 39 31
        else if meE (fld b 30 27) = 1 then (fld b 39 31 - 1) * reg 20 16 + 2 * fld b 55 48
        else (2 * fld b 39 31 - 1) * reg 20 16 + fld b 55 48) →
      reg 25 21 + span ≤ 0x800000 → (sc ≠ 0 → reg 15 11 + sc ≤ 0x800000) →
      ∃ t, exec (.ifill n h b) s = .next t
        ∧ (t.core n).me.buf = vmod c.me.buf (fld b 63 63) (fillData (s.entryAt n 1 0x03 h b) c.skillet)
        ∧ (t.core n).me.scale = vmod c.me.scale (fld b 63 63) (fillScales (s.entryAt n 1 0x03 h b) c.skillet)
        ∧ (t.core n).me.acc = c.me.acc ∧ (t.core n).skillet = c.skillet ∧ (t.core n).pc = c.pc + 16
        ∧ vget (t.core n).flights 0 = [{ e := s.entryAt n 1 0x03 h b }])
    ∧ (∀ sz, s.engReady n 1 0x05 h b = true → sz = (if bitOf h.mod.toNat 0 then 256 else 128) →
      reg 40 36 + (fld b 52 41 - 1) * reg 35 31 + sz ≤ 0x800000 → c.progEnd ≤ reg 40 36 →
      ∃ t, exec (.accst n h b) s = .next t ∧ (t.core n).me.acc = c.me.acc ∧ (t.core n).me.buf = c.me.buf
        ∧ (c.skillet.wf = true → bitOf h.mod.toNat 0 = false → ∀ r < fld b 52 41, ∀ j < 128,
          (t.core n).skillet.read (reg 40 36 + r * reg 35 31 + j) = c.me.acc.read (128 * (fld b 63 53 + r) + j))
        ∧ (∀ x, (∀ r < fld b 52 41, x < reg 40 36 + r * reg 35 31 ∨ reg 40 36 + r * reg 35 31 + sz ≤ x) →
          (t.core n).skillet.read x = c.skillet.read x)
        ∧ (t.core n).pc = c.pc + 16 ∧ vget (t.core n).flights 0 = [{ e := s.entryAt n 1 0x05 h b }])

/-- The vector engine's instructions begin: the result that the operation gives on its operands is written and counted, and
the instruction is in the pipeline; or the code of an operand that is refused is raised as a fault. So do UNARY, CMP, SLICE,
COMBINE, FTLOAD and VSEED (R168 to R191, R193). These commands complete: VE_ADD, VE_SUB, VE_MUL, FMA, VE_MIN, VE_MAX, UNARY,
BIT, VE_CMP, CVT, REDUCE, FUNC, FTLOAD, COMPRESS, EXPAND, SLICE, COMBINE, VSEED. The model's choices: Bytes that overlap a
source are free values, and the draw of a stochastic REDUCE is a free value (assumptions 8 and 10). -/
def Obligations.VectorEngineBegins : Prop :=
  (∀ (s : State) (n : Nat) (h : Hdr) (b : Word)
    (row : (Nat → Hdr → Word → Instr) × Nat × (State → Nat → Entry → Except VeErr (Srcs × Opd × VeRes))),
    row ∈ ([(.veAdd, 0x01, fun s n e => s.elementwise n e fun x y _ => x.add e.ve.rnd y),
      (.veSub, 0x02, fun s n e => s.elementwise n e fun x y _ => x.add e.ve.rnd y.neg),
      (.veMul, 0x03, fun s n e => s.elementwise n e fun x y _ => x.mul y),
      (.fma, 0x04, fun s n e => s.elementwise n e fun x y z => (x.mul y).add e.ve.rnd z),
      (.veMin, 0x05, fun s n e => s.elementwise n e fun x y _ => x.min y),
      (.veMax, 0x06, fun s n e => s.elementwise n e fun x y _ => x.max y),
      (.bitOp, 0x08, State.bitRun), (.cvt, 0x0A, State.convertOp), (.reduce, 0x10, State.reduceRun),
      (.funcOp, 0x20, State.funcRun), (.compress, 0x30, State.compressRun), (.expand, 0x31, State.expandRun)] :
      List ((Nat → Hdr → Word → Instr) × Nat × (State → Nat → Entry → Except VeErr (Srcs × Opd × VeRes)))) →
    s.engReady n 2 row.2.1 h b = true →
    let e := s.entryAt n 2 row.2.1 h b
    (∀ srcs dst r, row.2.2 (s.issued n h) n e = .ok (srcs, dst, r) → (∀ w ∈ r.wr, (s.core n).progEnd ≤ w.bit / 8) →
      ∃ t, exec (row.1 n h b) s = .next t
        ∧ (t.core n).skillet = (r.wr.map (fixOverlap srcs (some dst) s.freeCtr)).foldl Mem.put (s.core n).skillet
        ∧ (t.core n).flights = vset (s.core n).flights 1
          [{ e := e, writes := wrRanges (r.wr.map (fixOverlap srcs (some dst) s.freeCtr)), setTok := r.tok }]
        ∧ (t.core n).ve.lanes = r.lanes.getD (s.core n).ve.lanes ∧ (t.core n).ve.slots = (s.core n).ve.slots
        ∧ (t.core n).pc = (s.core n).pc + 16 ∧ (t.core n).t = ((s.core n).taken h).t ∧ (t.core n).g = (s.core n).g
        ∧ (t.core n).me = (s.core n).me ∧ (t.core n).sm = (s.core n).sm ∧ (∀ m, m ≠ n → t.core m = s.core m))
    ∧ (∀ x, row.2.2 (s.issued n h) n e = .error x → s.runsAlone n = true →
      exec (row.1 n h b) s = .next (((s.issued n h).modCore n fun k => { k with ve := { k.ve with
        cnt := bumpBy k.ve.cnt 8 x.ood } }).raiseFault n 2 x.code (s.core n).pc x.addr)))
  ∧ (∀ (s : State) (n : Nat) (h : Hdr) (b : Word),
    let u := s.issued n h
    let e := fun op => s.entryAt n 2 op h b
    let clear := fun (r : VeRes) => ∀ w ∈ r.wr, (s.core n).progEnd ≤ w.bit / 8
    let deg := ftDeg (vget (s.core n).ve.slots ((e 0).ve.fn % 8)).bytes
    (∀ srcs dst r, s.engReady n 2 0x07 h b = true → clear r →
      u.elementwise n (e 0x07) (fun x _ _ => if fld b 15 8 = 0 then x.neg
        else if fld b 15 8 = 1 then x.abs else x) = .ok (srcs, dst, r) →
      exec (.unary n h b) s = .next (u.veCommit n (e 0x07) srcs (some dst) r deg))
    ∧ (∀ srcs dst r, s.engReady n 2 0x09 h b = true → clear r → u.cmpRun n (e 0x09) = .ok (srcs, dst, r) →
      exec (.veCmp n h b) s = .next (u.veCommit n (e 0x09) srcs dst r 0))
    ∧ (∀ srcs dst r, s.engReady n 2 0x38 h b = true → clear r → fld b 13 13 = 0 →
      u.sliceRun n (e 0x38) = .ok (srcs, dst, r) → exec (.slice n h b) s = .next (u.veCommit n (e 0x38) srcs dst r 0))
    ∧ (∀ srcs dst r, s.engReady n 2 0x38 h b = true → clear r → fld b 13 13 = 1 →
      u.joinRun n (e 0x38) = .ok (srcs, dst, r) → exec (.slice n h b) s = .next (u.veCommit n (e 0x38) srcs (some dst) r deg))
    ∧ (∀ srcs dst r, s.engReady n 2 0x39 h b = true → clear r → u.combineRun n (e 0x39) = .ok (srcs, dst, r) →
      exec (.combine n h b) s = .next (u.veCommit n (e 0x39) srcs dst r 0))
    ∧ (∀ a tbl, s.engReady n 2 0x21 h b = true → a = ((s.core n).getG (fld b 58 54)).toNat → a % 64 = 0 →
      a + 64 + 16 * ftNseg ((s.core n).skillet.readN a 64) ≤ 0x800000 → ftBad ((s.core n).skillet.readN a 64) = false →
      tbl = (s.core n).skillet.readN a (64 + 16 * ftNseg ((s.core n).skillet.readN a 64)) →
      exec (.ftload n h b) s = .next (u.modCore n fun c =>
        ({ c with ve := { c.ve with slots := vset c.ve.slots (fld b 15 8) { st := 1, bytes := tbl } } }).launch 1 { e := e 0x21 }))
    ∧ (s.engReady n 2 0x3F h b = true → exec (.vseed n h b) s = .next (u.modCore n fun c =>
      ({ c with ve := { c.ve with
          seed := (s.core n).getG (fld b 58 54)
          lanes := vofList 256 ((List.range 256).map fun l => laneInit ((s.core n).getG (fld b 58 54)).toNat n l) } }).launch 1
        { e := e 0x3F })))

/-- The Exchange's instructions begin: WOPEN opens a slot with the core's epoch, WCLOSE closes one, advances its window epoch
and cancels its credits, and both signal at once; GRANT records a credit with a fresh tag and sends it to the sender core
(R120, R127, R130). PUT sends its bytes in arrivals of at most 2,048 bytes, each with a tag of its own that the instruction
waits for, and leaves the Skillet as it is (R124, R125). In credit mode it consumes a credit that covers it (R129). RDV
records that the core is ready for rendezvous K, its next, and stays in execution until the package starts that step; READY
goes out once every core of the command has executed it (R369). These commands complete: WOPEN, WCLOSE, GRANT, PUT, RDV. The
model's choices: TAGs are numbered by assumption 13. -/
def Obligations.ExchangeInstructionsBegin : Prop :=
  (∀ (s : State) (n : Nat) (h : Hdr) (b : Word),
    let c := s.core n
    let reg := fun hi lo => (c.getG (fld b hi lo)).toNat
    let w := fld b 63 60
    (s.engReady n 5 0x01 h b = true → (c.taken h).signalFits h = true → (vget c.wins w).isOpen = false → c.progEnd ≤ reg 52 48 →
      c.meetsWindow (reg 52 48) (reg 47 43) = false →
      let x : Window := { isOpen := true, mode := fld b 59 59 == 1, tk := fld b 58 53, epoch := c.epoch, base := reg 52 48
                          length := reg 47 43 }
      exec (.wopen n h b) s = .next (s.modCore n fun c => ({ c.taken h with wins := vset c.wins w x }).passed h (c.pc + 16)))
    ∧ (s.engReady n 5 0x02 h b = true → (c.taken h).signalFits h = true → (vget c.wins w).isOpen = true →
      ∃ t, exec (.wclose n h b) s = .next t ∧ (vget (t.core n).wins w).isOpen = false
        ∧ (vget (t.core n).wins w).epoch = ((vget c.wins w).epoch + 1) % 65536
        ∧ (t.core n).ownCredits = c.ownCredits.filter (fun x => x.win != w)
        ∧ (t.core n).xchCnt = bumpBy c.xchCnt 6 (c.ownCredits.filter fun x => x.win == w).length
        ∧ (∀ j, j ≠ w → vget (t.core n).wins j = vget c.wins j) ∧ (t.core n).skillet = c.skillet
        ∧ (t.core n).pc = c.pc + 16 ∧ (t.core n).flights = c.flights)
    ∧ (s.engReady n 5 0x03 h b = true → (vget c.wins w).isOpen = true → (vget c.wins w).mode = false →
      reg 47 43 + reg 42 38 ≤ (vget c.wins w).length →
      let x : OwnCredit := { tag := s.nextTag, win := w, pkg := bitsOf (reg 52 48) 13 0, core := bitsOf (reg 52 48) 21 14
                             offset := reg 47 43, length := reg 42 38, tk := fld b 58 53, sentEdge := s.beat.edge
                             lastEdge := s.beat.edge }
      exec (.grant n h b) s = .next ((({ (s.issued n h) with nextTag := (s.nextTag + 1) % 65536 } : State).modCore n fun c =>
        ({ c with ownCredits := c.ownCredits ++ [x] }).launch 4 { e := s.entryAt n 5 0x03 h b, tags := [s.nextTag] }).sendCredit n x)))
  ∧ (∀ (s : State) (n : Nat) (h : Hdr) (b : Word) (len : Nat), s.engReady n 5 0x04 h b = true →
    len = ((s.core n).getG (fld b 37 33)).toNat → putOutside (s.entryAt n 5 0x04 h b) = false →
    ∃ t tags, exec (.put n h b) s = .next t ∧ tags.length = ceilDiv len 2048
      ∧ vget (t.core n).flights 4 = [{ e := s.entryAt n 5 0x04 h b, tags := tags }]
      ∧ ((t.core n).puts.drop (s.core n).puts.length).map (·.tag) = tags
      ∧ sumL (((t.core n).puts.drop (s.core n).puts.length).map (·.length)) = len
      ∧ (∀ x ∈ (t.core n).puts.drop (s.core n).puts.length, x.length ≤ 2048 ∧ x.offset = ((s.core n).getG (fld b 42 38)).toNat + 2048 * x.index)
      ∧ (fld b 59 59 = 1 → (t.core n).credits = (s.core n).credits)
      ∧ (t.core n).skillet = (s.core n).skillet ∧ (t.core n).pc = (s.core n).pc + 16 ∧ (t.core n).wins = (s.core n).wins)
  ∧ (∀ (s : State) (n : Nat) (h : Hdr) (b : Word) (a : Nat), s.engReady n 5 0x05 h b = true → (s.core n).group = true →
    fld b 63 56 + 1 < (s.core n).nrdv → fld b 63 56 = ((s.core n).lastK.map (· + 1)).getD 0 → (s.core n).cmd = some a →
    exec (.rdv n h b) s = .next ((((s.issued n h).modCore n fun c =>
      ({ c with lastK := some (fld b 63 56) }).launch 4 { e := s.entryAt n 5 0x05 h b }).modGroup a fun g =>
        { g with rdvs := (n, fld b 63 56, s.beat.edge) :: g.rdvs.filter fun r => r.1 != n }).tryReady a (fld b 63 56)))

/-- XFER, GATHER and SCATTER begin while every transfer tag is held: the Ladle reads the first burst of 16 descriptors of the
array, and the Colander takes the instruction with its operands; no granule issues (R200 to R202, R222, R226). These commands
complete: XFER, GATHER, SCATTER. -/
def Obligations.StreamInstructionsBegin : Prop :=
  ∀ (s : State) (n : Nat) (h : Hdr) (b : Word), (s.core n).sm.freeTagNo = none →
    let c := s.core n
    let reg := fun hi lo => (c.getG (fld b hi lo)).toNat
    let count := reg 58 54 % 8192
    let desc := fun i => c.skillet.readN (reg 63 59 + 64 * i) 64
    (s.engReady n 3 0x01 h b = true → reg 63 59 % 64 = 0 → reg 63 59 + 64 * count ≤ 0x800000 →
      (∀ i < min 16 count, s.descFault n (desc i) = none) →
      let x : XferSt := { id := c.sm.nextId, e := s.entryAt n 3 0x01 h b, base := reg 63 59, count := count
                          nextDesc := min 16 count
                          descs := (List.range (min 16 count)).map fun i => { idx := i, d := descOf (desc i) } }
      ∃ t, exec (.xfer n h b) s = .next t ∧ (t.core n).sm.xfers = [x]
        ∧ (t.core n).sm.tags = c.sm.tags ∧ (t.core n).pc = c.pc + 16 ∧ (t.core n).skillet = c.skillet
        ∧ (t.core n).t = (c.taken h).t ∧ (t.core n).sm.ldlCnt = bump c.sm.ldlCnt 14)
    ∧ (∀ row ∈ ([(.gather, 0x01), (.scatter, 0x02)] : List ((Nat → Hdr → Word → Instr) × Nat)), ∀ esz op stride cnt,
      s.engReady n 4 row.2 h b = true → esz = 2 ^ (fld b 33 31 + 1) → op = reg 43 39 →
      stride = (if bitsOf op 47 24 = 0 then esz else bitsOf op 47 24) → cnt = reg 48 44 % 2 ^ 17 →
      bitsOf op 22 0 % min esz 64 = 0 → stride % min esz 64 = 0 → bitsOf op 22 0 + (cnt - 1) * stride + esz ≤ 0x800000 →
      reg 53 49 % 4 = 0 → reg 53 49 + 4 * cnt ≤ 0x800000 →
      (fld b 38 34 ≠ 0 → reg 38 34 + ceilDiv cnt 8 ≤ 0x800000) →
      let mask := if fld b 38 34 = 0 then none else some (reg 38 34)
      let x : ColSt := { id := c.sm.nextId, e := s.entryAt n 4 row.2 h b, handle := reg 63 59 % 2 ^ 32
                         base := reg 58 54 % 2 ^ 40, idxAddr := reg 53 49, count := cnt, skl := bitsOf op 22 0
                         stride := stride, mask := mask, esz := esz }
      ∃ t, exec (row.1 n h b) s = .next t ∧ (t.core n).sm.cols = [x]
        ∧ (t.core n).sm.tags = c.sm.tags ∧ (t.core n).pc = c.pc + 16 ∧ (t.core n).skillet = c.skillet
        ∧ (t.core n).t = (c.taken h).t)

/-! ## The clock, reset and control space (R1 to R7, R35, R491 to R496) -/

/-- The model's idle step (DESIGN CHOICE, assumption 1): with nothing commanded one beat passes, unless the beat unit is
UNLOCKED. Counts and edges go up by one; nothing is sent and no command appears. -/
def Obligations.IdleStepIsOneBeat : Prop :=
  ∀ (s : State), s.pending = [] →
    (s.beat.lock = .unlocked → step s = .next s)
    ∧ (s.beat.lock ≠ .unlocked → s.beat.sysCount = none → s.beat.adoptDue = none → s.tongs.merge = [] → s.lid.riskBeats < 65536 →
      s.lid.risk + 255 < s.lid.high → ∃ t, step s = .next t ∧ t.beat.count = s.beat.count + 1 ∧ t.beat.edge = s.beat.edge + 1 ∧ t.pending = []
        ∧ t.outbox = s.outbox ∧ t.log = s.log ∧ t.cmd = s.cmd ∧ t.tongs = s.tongs ∧ t.dies = s.dies
        ∧ (∀ p < 17, t.port p = (s.port p).beats s.beat.edge 1)
        ∧ ∀ n < 192, (t.core n).g = (s.core n).g ∧ (t.core n).pc = (s.core n).pc ∧ (t.core n).skillet = (s.core n).skillet)

/-- The registers whose reset value the tables give as a number read so right after a package reset (Table 0.4). -/
def Obligations.ResetValues : Prop :=
  (∀ row ∈ ([(.cfgTorusDim, 0x3800), (.cfgDieStatus, 0), (.beatCount, 0), (.beatCtrl, 0x100000), (.beatHold, 0),
      (.tngStatus, 0), (.tngCtrl, 0x0004000000001000), (.farCfg, 0), (.farStatus, 0), (.hltBistCtrl, 0x8000002000000002),
      (.hltBistWin, 0), (.hltBistLen, 0), (.cmdStatus, 6), (.cmdCtrl, 0x8004000), (.lidStatus, 0xF00000000), (.lidCfg, 0),
      (.lidCtrl, 0x1100), (.lidRisk, 0), (.lidRiskCtrl, 0x0100000010000200), (.lidRiskW, 0xFF20084080011001),
      (.lidRestorePoint, 0), (.pcieStatus, 0), (.pwrBoot, 1), (.cfgActBeat, 0), (.cfgActGen, 0), (.cfgAttStatus, 0), (.cfgFwSrc, 0),
      (.hltLogStatus, 0), (.hltLogNext, 0), (.hltLogCtrl, 256), (.hltEvtMask 0, 0x0000FFFF00000000),
      (.hltEvtMask 1, 0xFFFFFFFF00000000), (.hltEvtMask 2, 0x000000000000FFFF), (.hltEvtMask 3, 0), (.hltClrStatus, 0)] : List (Csr × Nat)),
      State.reset.readCsr row.1 = row.2)
  ∧ (∀ n < 192, ∀ row ∈ ([(.seqStatus, 0), (.seqBeatBase, 0), (.seqWdog, 0x100000), (.seqFault, 0), (.meStatus, 0), (.veStatus, 0),
      (.veSeed, 0), (.ldlStatus, 0), (.ldlReg 0, 0x80000010000), (.ldlReg 1, 0x80000010000), (.ldlReg 2, 0x80000010000),
      (.colStatus, 0), (.xchEpoch, 0), (.seqCycles, 0)] : List (CoreReg × Nat)), State.reset.readCsr (.core n row.1) = row.2)
  ∧ (∀ p < 17, ∀ row ∈ ([(.ctrl, 0), (.neigh, 0), (.lat, 0), (.fpRx, 0)] : List (PortReg × Nat)),
      State.reset.readCsr (.port p row.1) = row.2)
  ∧ (∀ p < 16, State.reset.readCsr (.lidPartStat p) = 0 ∧ State.reset.readCsr (.cmdPartCtrl p) = 0)
  ∧ (∀ c < 64, State.reset.readCsr (.cmdClient c) = 0 ∧ ∀ t < 3, State.reset.readCsr (.tngQuota c t) = 0)

/-- A read of a register answers its value and changes nothing. An access that is not 8 bytes wide or not aligned is refused
with 0x12, one that no register occupies with 0x11, and one to a block held in reset with 0x13, in that order; each writes
one log record and changes no register (R2 to R6). This command completes: CSR_READ. The model's choices: The order of the
three checks is that of R6, and the fields of the record are assumption 50. -/
def Obligations.RegisterAccess : Prop :=
  (∀ (s : State) (v : Via) (off width : Nat) (value : Word) (code : Nat),
    (code = 0x12 ∧ (width ≠ 8 ∨ off % 8 ≠ 0) ∨ code = 0x11 ∧ width = 8 ∧ off % 8 = 0 ∧ csrAt off = none
      ∨ code = 0x13 ∧ width = 8 ∧ off % 8 = 0 ∧ ∃ r, csrAt off = some r ∧ s.csrHeld off r = true) →
    let e : LogEv := { code := code, unit := 0xFE, addr := .ctrl off }
    (s.admits v 0x21 = true → exec (.csrRead v off width) s = .next (((s.takeRx v 0x21).logEv e).csrReply v.tag code 0))
    ∧ (s.admits v 0x22 = true → exec (.csrWrite v off width value) s = .next (((s.takeRx v 0x22).logEv e).csrReply v.tag code 0)))
  ∧ (∀ (s : State) (v : Via) (off : Nat) (r : Csr), s.admits v 0x21 = true → off % 8 = 0 → csrAt off = some r → s.csrHeld off r = false →
    exec (.csrRead v off 8) s = .next ((s.takeRx v 0x21).csrReply v.tag 0 (s.csrValue r)))

/-- A register that software may write at any time reads back what a write left in its fields; reserved bits read 0 (Table
0.4), and every other register of the list is as it was. This command completes: CSR_WRITE. -/
def Obligations.RegisterWritesReadBack : Prop :=
  let rows : List (Nat × Csr × Word) :=
    [(0x348, .cfgActBeat, 0xFFFFFFFFFFFFFFFF), (0x608, .cfgFwSrc, 0xFFFFFFFFFFFFF000), (0x300010, .hltLogCtrl, 0xFFFF),
     (0x300040, .hltEvtMask 0, 0xFFFFFFFFFFFFFFFF), (0x300058, .hltEvtMask 3, 0xFFFFFFFFFFFFFFFF), (0x300060, .hltClrAt, 0xFFFFFFFFFFFFFFFF),
     (0x301000, .hltBistCtrl, 0xC000003F00000003), (0x301008, .hltBistWin, 0xFFFFFFFFFFFFFFFF), (0x301010, .hltBistLen, 0xFFFFFFFF),
     (0x400028, .lidRiskCtrl, 0xFFFFFFFFFFFF03FF), (0x400030, .lidRiskW, 0xFFFFFFFFFFFFFFFF), (0x400038, .lidStoreAddr, 0xFFFFFFFFFFE00000),
     (0x400050, .lidRestorePoint, 0xFFFFFFFFFFFFFFFF), (0x500008, .tngCtrl, 0xFFFFFFFF00FFFFFF), (0x600010, .cmdCtrl, 0xFFFFFFFF)]
  ∀ (s : State) (v : Via) (w : Word), s.admits v 0x22 = true → s.power.ready = true → ∀ row ∈ rows,
    ∃ t, exec (.csrWrite v row.1 8 w) s = .next t ∧ t.csrValue row.2.1 = w &&& row.2.2
      ∧ (∀ x ∈ rows, x.2.1 ≠ row.2.1 → t.csrValue x.2.1 = s.csrValue x.2.1)
      ∧ t.cores = s.cores ∧ t.dies = s.dies ∧ t.beat = s.beat

/-- The register rows of the regulators, quotas, cap mode and seed: BEAT_SEED is taken by a PHASE_LOCKED root and refused
with 0x3B elsewhere (R47), LDL_REG_t waits for the next beat edge (R207), TNG_QUOTA_c_t takes AUTO and LIMIT (R268), and
PWR_CAP takes HOST_MODE (R423). These commands complete: BEAT_SEED, LDL_REG_WRITE, QUOTA_LIMIT_WRITE, HOST_MODE_WRITE. The
model's choices: That these rows are register writes is assumption 14. -/
def Obligations.NamedRegisterWrites : Prop :=
  ∀ (s : State) (v : Via), s.admits v 0x22 = true → s.power.ready = true →
    let u := s.takeRx v 0x22
    (∀ value < 2 ^ 48, s.beat.root = true → s.beat.lock = .phaseLocked → exec (.beatSeed v value) s =
      .next ((u.modBeat fun b => { b with pendingSeed := some value }).csrReply v.tag 0 0))
    ∧ (∀ value < 2 ^ 48, s.beat.root = false ∨ s.beat.lock ≠ .phaseLocked → exec (.beatSeed v value) s =
      .next ((u.logEv { code := 0x3B, unit := 0xF2 }).csrReply v.tag 0x3B 0))
    ∧ (∀ n < 192, ∀ t < 3, ∀ en, ∀ burst < 2 ^ 12, ∀ rate < 2 ^ 16, s.csrHeld (0x1000000 + 0x10000 * n) (.core n (.ldlReg t)) = false →
      exec (.ldlRegWrite v n t en burst rate) s = .next ((u.modCore n fun c => { c with sm := { c.sm with
        buckets := vmod c.sm.buckets t fun b => { b with pending := some (en, rate, burst) } } }).csrReply v.tag 0 0))
    ∧ (s.tongs.waits = [] → ∀ c < 64, ∀ t < 3, ∀ auto, ∀ limit < 2 ^ 24, exec (.quotaLimitWrite v c t auto limit) s =
      .next ((u.modTongs fun x => { x with
        quotas := vmod x.quotas c fun q => vmod q t fun y => { y with auto := auto, limit := limit } }).csrReply v.tag 0 0))
    ∧ (∀ mode < 4, exec (.hostModeWrite v mode) s =
      .next ((u.modPower fun p => { p with hostMode := mode }).csrReply v.tag 0 0))

/-- What a log event writes (R491, R495, R496): its code is counted; below the limit of its interval a record with the next
SEQ becomes the newest of at most 4,096, and at the limit only HLT_LOG_STATUS.SUPPRESSED counts it. RESET_RELEASE is one
command that logs: its first record is code 0x87 with the cause of the reset and STATE_KEPT (R494). This command completes:
RESET_RELEASE. The model's choices: When STATE_KEPT is decided is assumption 25. -/
def Obligations.LogRecords : Prop :=
  (∀ (s : State) (e : LogEv), e.code < 256 →
    vget (s.logEv e).log.codeCnt e.code = satAdd 64 (vget s.log.codeCnt e.code) 1
    ∧ (∀ c < 256, c ≠ e.code → vget (s.logEv e).log.codeCnt c = vget s.log.codeCnt c)
    ∧ ((s.log.roll s.now).blocks e.code = false → ∃ r : LogRec, (s.logEv e).log.ring = (r :: s.log.ring).take 4096 ∧ r.ev = e
      ∧ r.seq = s.log.next ∧ r.beat = s.beat.count ∧ (s.logEv e).log.next = s.log.next + 1
      ∧ (s.logEv e).log.suppressed = s.log.suppressed)
    ∧ ((s.log.roll s.now).blocks e.code = true → (s.logEv e).log.ring = s.log.ring ∧ (s.logEv e).log.next = s.log.next
      ∧ (s.logEv e).log.suppressed = satAdd 32 s.log.suppressed 1))
  ∧ (∀ (s : State) (boot clk feed slot : Nat) (keep : Bool), s.power.inReset = true → s.log.ring = [] → s.log.limit = 0 →
    ∃ t, exec (.resetRelease boot clk feed slot keep) s = .next t
      ∧ (∃ r rest, t.log.ring = rest ++ [r] ∧ r.ev = { code := 0x87, unit := 0xF8, sub := s.power.cause, cause := b2n (s.power.srClean && keep) })
      ∧ t.power.inReset = false ∧ t.power.stage = 1 ∧ t.power.bootSrc = boot % 4 ∧ t.power.bootRsv = (boot % 4 == 0)
      ∧ t.beat.mode = (if clk % 4 = 0 then 3 else clk % 4) ∧ t.beat.strapRsv = (clk % 4 == 0)
      ∧ t.power.feedId = feed % 16 ∧ t.power.traySlot = slot % 8 ∧ t.power.stateKept = (s.power.srClean && keep)
      ∧ t.cores = s.cores ∧ t.tongs = s.tongs ∧ t.cmd = s.cmd ∧ t.dies = s.dies)

/-! ## The beat unit (R34 to R54, R341, R476, R500, R501) -/

/-- The lock states of Table 2.3. PLL_LOCK leaves UNLOCKED with the count as it stopped; the loss of REFCLK leaves every
state for UNLOCKED and stops the running command with 0x31; the 2^20th beat of holdover goes back to FREQ_LOCKED with 0x32;
and a pending seed is compared at the next pulse edge: it is adopted unless the count has passed it (R47). These commands
complete: PLL_LOCK, REFCLK_LOST, HOLDOVER_EXPIRED, SEED_COMPARE. The model's choices: The fields of record 0x3F are
assumption 17. -/
def Obligations.LockStates : Prop :=
  (∀ (s : State), s.beat.lock = .unlocked → s.power.inReset = false →
    let root := s.beat.root && s.beat.mode == 2
    exec .pllLock s = .next ((s.modBeat fun b => { b with
      lock := if root then .phaseLocked else .freqLocked
      freeRun := b.mode == 1, lockEdge := b.edge, markerSeen := false, noRootLogged := false, ignoredRun := 0
      lastGood := none, residue := if root then 0 else b.residue
      depth := if root then 0 else b.depth
      pendingSeed := none, prevPulse := none, occ := none, adoptDue := none }).logEv
        { code := 0x3F, unit := 0xF2, sub := if root then 2 else 1, extra := if root then 2 else 1 }))
  ∧ (∀ (s : State), s.beat.lock ≠ .unlocked → ∃ t, exec .refclkLost s = .next t ∧ t.beat.lock = .unlocked
      ∧ t.beat.holdover = false ∧ t.beat.pendingSeed = none
      ∧ (∀ n < 192, ∀ k, s.cmd.cmds = [k] → k.stage = .running → k.group = none → (s.core n).cmd = some k.acceptNo →
        (s.core n).busy = true → (t.core n).st = .aborting ∧ (t.core n).abortCode = 0x31 ∧ t.beat.count = s.beat.count))
  ∧ (∀ (s : State), s.beat.holdover = true → s.beat.elapsed = 2 ^ 20 → s.beat.pendingSeed = none → s.cmd.cmds = [] →
    exec .holdoverExpired s = .next (((s.modBeat fun b => { b with
      holdover := false, elapsed := 0, lastGood := none, sysCount := none, lock := .freqLocked, pendingSeed := none
      prevPulse := none, occ := none, adoptDue := none }).logEv { code := 0x32, unit := 0xF2 }).beatCnt 21))
  ∧ (∀ (s : State) (v : Nat), s.beat.pendingSeed = some v → s.beat.lock = .phaseLocked → s.beat.sysCount = none → s.beat.adoptDue = none →
    let arrival := s.beat.count + 1 + (s.beat.residue + 65536 - (s.beat.count + 1) % 65536) % 65536
    s.beat.residue < 65536 →
    ∃ t, exec .seedCompare s = .next t ∧ t.beat.pendingSeed = none
      ∧ (arrival ≤ 65536 * v → t.beat.lock = .timeLocked ∧ t.beat.count = 65536 * v ∧ t.beat.residue = 0)
      ∧ (65536 * v < arrival → t.beat.lock = .phaseLocked ∧ t.beat.count = arrival))

/-- Pulses (R50, R51): in PHASE_LOCKED and TIME_LOCKED a BEAT_SYNC edge at most 16 cycles from its expected edge starts a
slew of its error, and one further away is ignored, counted in BEAT_CNT_19 and logged with 0x34; two edges 65,536 beats and
at most 16 cycles apart lock the phase of a FREQ_LOCKED package (R500). A missing pulse starts holdover, counted in
BEAT_CNT_20, and 2^20 beats without a marker or a named root are logged once with 0x3C (R42). Markers (R41, R48, R341). A
TIME_LOCKED package takes a marker whose value is not that of the edge nearest its time to BEAT_CNT_22 and record 0x33, and
any other marker off its SRC_PORT changes no time. A PHASE_LOCKED package adopts the count of a marker one above that of the
occasion 65,536 beats before. A TIME_LOCKED package sends one on each trained port. These commands complete: BEAT_SYNC_PULSE,
SYNC_LOST, NO_ROOT, MARKER, MARKER_SEND. The model's choices: The arithmetic of a marker's time is assumption 37. -/
def Obligations.PulsesAndMarkers : Prop :=
  ((∀ (s : State) (cyc : Nat), s.beat.mode = 3 → s.beat.lock = .phaseLocked ∨ s.beat.lock = .timeLocked → s.beat.holdover = false →
    2 * (cyc : Int) < s.beat.beatLen → s.beat.fromPulse s.beat.system = 0 →
    (cyc ≤ 16 → exec (.beatSyncPulse cyc) s =
      .next (s.modBeat fun b => { b with slew := cyc, lastGood := some b.edge, ignoredRun := 0 }))
    ∧ (16 < cyc → s.beat.ignoredRun < 2 → exec (.beatSyncPulse cyc) s =
      .next (((s.beatCnt 19).logEv { code := 0x34, unit := 0xF2 }).modBeat fun b =>
        { b with ignoredRun := b.ignoredRun + 1, prevPulse := none })))
  ∧ (∀ (s : State) (cyc e0 : Nat) (p0 : Int), s.beat.mode = 3 → s.beat.lock = .freqLocked → 2 * (cyc : Int) < s.beat.beatLen →
    s.beat.prevPulse = some (e0, p0) → s.beat.edge = e0 + 65536 → ((cyc : Int) - p0).natAbs ≤ 16 →
    ∃ t, exec (.beatSyncPulse cyc) s = .next t ∧ t.beat.lock = .phaseLocked ∧ t.beat.align = cyc
      ∧ t.beat.residue = s.beat.system % 65536 ∧ t.beat.count = s.beat.count ∧ t.cores = s.cores ∧ t.cmd = s.cmd)
  ∧ (∀ (s : State) (cyc : Nat), s.beat.mode ≠ 3 → exec (.beatSyncPulse cyc) s = .next s)
  ∧ (∀ (s : State) (e : Nat), s.beat.mode = 3 → s.beat.holdover = false → s.beat.lock = .phaseLocked ∨ s.beat.lock = .timeLocked →
    s.beat.lastGood = some e → s.beat.edge = e + 65536 →
    exec .syncLost s = .next ((s.modBeat fun b =>
      { b with holdover := true, elapsed := 0, ignoredRun := 0, prevPulse := none }).beatCnt 20))
  ∧ (∀ (s : State), s.beat.mode ≠ 1 → s.beat.rootValid = false → s.beat.markerSeen = false → s.beat.noRootLogged = false →
    s.beat.lock = .freqLocked ∨ s.beat.lock = .phaseLocked → s.beat.edge = s.beat.lockEdge + 2 ^ 20 →
    exec .noRoot s = .next ((s.modBeat fun b => { b with noRootLogged := true }).logEv { code := 0x3C, unit := 0xF2 })))
  ∧ ((∀ (s : State) (port : Nat) (h : FlitHdr) (cyc value depth : Nat) (hold : Bool) (d : Nat), (s.port port).carries = true →
    let f := (s.flitHdr port h).fjlCnt port 10 1
    let u := f.modBeat fun b => { b with markerSeen := true }
    let due := (s.beat.numAt (s.beat.nearest (markerTime cyc (f.port port).lat d)).1 + 32768) / 65536
    (port < 16 → s.beat.lock = .timeLocked → s.beat.mode = 2 ∨ s.beat.mode = 3 →
      s.beat.mode = 3 ∨ port ≠ s.beat.srcPort ∨ s.beat.root = true → exec (.marker port h cyc value depth hold d) s =
      .next (if due = value then u else (u.beatCnt 22).logEv { code := 0x33, unit := 0xF2 }))
    ∧ (16 ≤ port ∨ s.beat.mode = 1 ∨ s.beat.lock = .unlocked → exec (.marker port h cyc value depth hold d) s = .next f))
  ∧ (∀ (s : State) (port : Nat) (h : FlitHdr) (value : Nat) (hold : Bool) (o : Occasion), port < 16 → (s.port port).carries = true →
    s.beat.mode = 3 → s.beat.lock = .phaseLocked → 0 < s.beat.beatLen → s.beat.fromPulse s.beat.system = 0 → s.beat.occ = some o →
    o.agree = true → s.beat.edge = o.edge + 65536 → value = o.value + 1 →
    let f := (s.flitHdr port h).fjlCnt port 10 1
    (f.port port).lat = 0 → exec (.marker port h 0 value 0 hold 0) s = .next (f.modBeat fun b => { b with
      markerSeen := true, occ := some { edge := s.beat.edge, value := value, agree := true }
      adoptDue := some (value, s.beat.edge) }))
  ∧ (∀ (s : State) (v e : Nat), s.pending = [] → s.beat.adoptDue = some (v, e) → e ≤ s.beat.edge → s.beat.lock = .phaseLocked →
    s.tongs.merge = [] → ∃ t, step s = .next t ∧ t.beat.lock = .timeLocked ∧ t.beat.residue = 0 ∧ t.beat.adoptDue = none
      ∧ t.beat.system = 65536 * v + (s.beat.edge - e) + 1
      ∧ t.beat.count = max s.beat.count (65536 * v + (s.beat.edge - e) + (if 65536 * v + (s.beat.edge - e) < s.beat.count then 0 else 1)))
  ∧ (∀ (s : State), s.beat.lock = .timeLocked → s.beat.mode ≠ 1 → s.beat.system % 65536 = 0 → s.beat.markerSent ≠ some s.beat.edge →
    ∃ t, exec .markerSend s = .next t ∧ t.beat = { s.beat with markerSent := some s.beat.edge } ∧ t.cores = s.cores ∧ t.log = s.log
      ∧ t.outbox = s.outbox ∧ ∀ p < 17, t.port p = if (s.port p).carries then ((s.fjlCnt p 9 1).port p).emit 2 (markerPayload
          (s.beat.system / 65536) s.beat.depthShown s.beat.holdover (s.markerD s.freeCtr p))
        else s.port p))

/-! ## Resets and boot (R27 to R29, R428 to R440) -/

/-- Block resets that RST_REQ asks for (R428, R429): an idle core, region or die is cleared and held in reset, with one
record 0x88, until BLOCK_RESET_COMPLETE lets it go; nothing else is reset. A target that is not idle is refused with 0x1F and
nothing changes. These commands complete: CORE_RESET, REGION_RESET, DIE_RESET, BLOCK_RESET_COMPLETE. The model's choices: The
fields of record 0x88 are assumption 17, and the states shown are assumption 26. -/
def Obligations.BlockResets : Prop :=
  ∀ (s : State) (v : Via) (x : Nat), s.admits v 0x22 = true → x < 256 →
    let refused := ((s.takeRx v 0x22).logEv { code := 0x1F, unit := 0xFE, addr := .ctrl 0x108000 }).csrReply v.tag 0x1F 0
    let noted := fun (t : State) => vget t.log.codeCnt 0x88 = satAdd 64 (vget s.log.codeCnt 0x88) 1
    (x < 192 → s.retired x = false → (s.core x).st = .idle → (s.core x).inReset = false → s.coreTested x = false →
      ∃ t, exec (.coreReset v x) s = .next t ∧ t.core x = { (s.core x).afterReset s.beat.edge with inReset := true }
        ∧ (∀ m < 192, m ≠ x → t.core m = s.core m) ∧ t.power.resets = (s.power.resets.filter fun b => b != .core x) ++ [.core x]
        ∧ noted t
        ∧ t.outbox.getLast? = some (s.csrAnswer v 0) ∧ t.tongs = s.tongs ∧ t.cmd = s.cmd ∧ t.dies = s.dies ∧ t.beat = s.beat)
    ∧ (192 ≤ x ∨ s.retired x = true ∨ (s.core x).st ≠ .idle ∨ (s.core x).inReset = true ∨ s.coreTested x = true →
      exec (.coreReset v x) s = .next refused)
    ∧ (x < 16 → s.regionIdle x = true → (s.region x).inReset = false →
      ∃ t, exec (.regionReset v x) s = .next t ∧ (t.region x).inReset = true ∧ (t.region x).used = (s.region x).used
        ∧ (t.region x).rebuild = [] ∧ (t.region x).cache = [] ∧ (t.region x).patrolWait = [] ∧ (t.region x).openRows = []
        ∧ (t.region x).sparing = [] ∧ (t.region x).patrol = 0 ∧ (t.region x).retiredRows = (s.region x).retiredRows
        ∧ (∀ m < 192, m / 12 = x → t.core m = { (s.core m).afterReset s.beat.edge with inReset := true })
        ∧ (∀ m < 192, m / 12 ≠ x → t.core m = s.core m) ∧ noted t ∧ t.outbox.getLast? = some (s.csrAnswer v 0) ∧ t.tongs = s.tongs ∧ t.dies = s.dies)
    ∧ (16 ≤ x ∨ s.regionIdle x = false ∨ (s.region x).inReset = true →
      exec (.regionReset v x) s = .next refused)
    ∧ (x < 4 → s.dieIdle x = true → s.resetting (.die x) = false →
      ∃ t, exec (.dieReset v x) s = .next t ∧ (t.die x).st = .bringup
        ∧ (∀ m < 192, m / 48 = x → t.core m = { (s.core m).afterReset s.beat.edge with inReset := true })
        ∧ (∀ m < 192, m / 48 ≠ x → t.core m = s.core m) ∧ (∀ d < 4, d ≠ x → t.die d = s.die d) ∧ (vget t.links x).up = Vector.replicate 2 false
        ∧ noted t ∧ t.outbox.getLast? = some (s.csrAnswer v 0) ∧ t.tongs = s.tongs ∧ t.cmd = s.cmd)
    ∧ (4 ≤ x ∨ s.dieIdle x = false ∨ s.resetting (.die x) = true → exec (.dieReset v x) s = .next refused)
    ∧ (x < 192 → s.resetting (.core x) = true → exec (.blockResetComplete (.core x)) s =
      .next ((s.modPower fun p => { p with resets := p.resets.filter fun b => b != .core x }).modCore x fun c =>
        { c with inReset := s.retired x, idleSince := s.beat.edge }))

/-- A package reset (R428, R431, R433, R434): by power-on, by a low pulse of RST_N of 10 µs, by the firmware watchdog and by
a sensor at 115 °C. Cores, beat unit, log and registers are as reset leaves them; the journal, the fuses' lists and dropped
lanes stay; RST_STATUS names the cause. A pulse shorter than 2 µs does nothing. These commands complete: PACKAGE_RESET,
FW_WATCHDOG, THERMAL_TRIP. The model's choices: That PWR_CNT_10 to PWR_CNT_12 read 1 is assumption 26. -/
def Obligations.PackageResets : Prop :=
  ∀ (s : State),
    (∀ row ∈ ([(.packageReset true 0 false, 1, 16), (.packageReset false 10000 false, 2, 16), (.fwWatchdog, 3, 10)] : List (Instr × Nat × Nat)),
      ∃ t, exec row.1 s = .next t ∧ t.power.cause = row.2.1 ∧ t.power.inReset = true ∧ t.power.ready = false ∧ t.beat = {} ∧ t.log = {}
        ∧ (∀ n < 192, t.core n = { inReset := s.retired n }) ∧ t.dies = Vector.replicate 4 {} ∧ t.cmd.journal = s.cmd.journal
        ∧ t.cmd.nextAccept = s.cmd.nextAccept ∧ t.integ.retired = s.integ.retired ∧ (∀ p < 17, t.port p = { dropped := (s.port p).dropped })
        ∧ t.cfg.active = s.cfg.active ∧ t.fw.slotA = s.fw.slotA ∧ t.fw.slotB = s.fw.slotB ∧ t.pending = s.pending ∧ t.outbox = s.outbox
        ∧ t.power.srClean = (row.2.1 != 1 && (!s.power.inReset || s.power.srClean)) ∧ ∀ k < 16, vget t.power.cnt k = if k = row.2.2 then 1 else 0)
    ∧ (∀ ns < 2000, ∀ taken, exec (.packageReset false ns taken) s = .next s)
    ∧ (∀ d < 5, ∀ temp, 115 ≤ temp → ∃ t, exec (.thermalTrip d temp) s = .next t ∧ t.power.cause = 5 ∧ t.power.thermTrip = true
      ∧ vget t.power.tmax d = temp ∧ vget t.power.cnt 11 = 1 ∧ t.beat = {} ∧ t.log = {} ∧ (∀ n < 192, t.core n = { inReset := s.retired n })
      ∧ t.cmd.journal = s.cmd.journal)

/-- The steps of boot (R438, R439, R454, R458): each moves PWR_BOOT.STAGE on by one; the fifth reports READY with record 0x89
and ends a trial of the firmware. A step 1 that fails stops the boot, and a retry, 2^25 beats after the stop, starts it again
at step 1. Step 4 drives PCIE_PERST_N high (R471). These commands complete: BOOT_STEP_DONE, BOOT_RETRY. The model's choices:
The outcomes of a step are operands of the row (assumption 6). -/
def Obligations.BootSteps : Prop :=
  ∀ (s : State) (i : BootInfo), s.power.inReset = false → s.power.ready = false →
    (s.power.failed = false → s.power.stage = 1 → s.beat.lock ≠ .unlocked →
      (i.ok = true → s.power.bootSrc = 2 → ∃ t, exec (.bootStepDone i) s = .next t ∧ t.power.stage = 2 ∧ t.power.bootMs = i.ms
        ∧ t.fw.got = i.image.length ∧ t.cores = s.cores ∧ t.log = s.log ∧ t.beat = s.beat)
      ∧ (i.ok = false → exec (.bootStepDone i) s =
        .next (s.modPower fun p => { p with bootMs := i.ms, failed := true, failEdge := s.beat.edge })))
    ∧ (s.power.failed = false → s.power.stage = 2 → s.power.bootSrc ≠ 1 →
      let b := s.fw.image.readN 0 s.fw.got
      exec (.bootStepDone i) s = .next (match s.imageBad b with
        | none => { s with
          power := { s.power with bootMs := i.ms, stage := 3 }
          fw := { s.fw with svnRun := leAt b 7 1, runKey := leAt b 6 1, runRevoke := bitOf (leAt b 20 1) 0, runDigest := sha3 b } }
        | some d => { s with
          power := { s.power with bootMs := i.ms, failed := true, failEdge := s.beat.edge }
          fw := { s.fw with lastReject := d } }))
    ∧ (s.power.failed = false → s.power.stage = 3 → s.cfg.active = none → s.cfg.staged = none → s.fw.revertLog = false →
      ∃ t, exec (.bootStepDone i) s = .next t ∧ t.power.stage = 4 ∧ t.cfg.defaulted = true ∧ t.cfg.valid = false
        ∧ (∀ d < 4, (t.die d).st = .bringup) ∧ t.cores = s.cores)
    ∧ (s.power.failed = false → s.power.stage = 4 → i.failedDies = [] → s.power.stateKept = true →
      ∃ t, exec (.bootStepDone i) s = .next t ∧ t.power.stage = 5 ∧ t.power.perst = true ∧ t.tongs.objs = s.tongs.objs ∧ t.tongs.tiersUp = true
        ∧ (∀ d < 4, (t.die d).st = .active ∨ (t.die d).st = .unreachable) ∧ ∀ n < 192, (t.core n).inReset = s.retired n)
    ∧ (s.power.failed = false → s.power.stage = 5 → i.faults = [] → s.integ.flashRows = [] → s.log.limit = 0 → s.lid.partnerValid = false →
      ∃ t, exec (.bootStepDone i) s = .next t ∧ t.power.ready = true ∧ t.power.stage = 6 ∧ t.fw.trial = false ∧ t.fw.attempted = false
        ∧ (∃ r, t.log.ring = (r :: s.log.ring).take 4096 ∧ r.ev = { code := 0x89, unit := 0xF8 }) ∧ t.cores = s.cores)
    ∧ (s.power.failed = true → s.beat.edge = s.power.failEdge + 2 ^ 25 →
      s.power.bootSrc = 1 ∨ s.power.bootSrc = 2 ∨ (s.port 16).st ≠ .active → exec .bootRetry s = .next { s with
        power := { s.power with failed := false, stage := 1 }
        fw := { s.fw with image := {}, got := 0 } })

/-! ## Firmware, attestation, configuration records (R441 to R447, R454 to R464) -/

/-- CFG_FW_CTRL (R457 to R459): each operation is refused with 0x75 before READY and with 0x7E, detail 8 and one record while
an operation runs or its condition does not hold; else STAGE empties the slot that is not active and asks the host for the
image's first page, ACTIVATE and ARB_COMMIT run until FW_OPERATION_COMPLETE, which moves the slot pointer into a trial, or
raises the anti-rollback counter to the running SVN. FW_STAGE_COMPLETE (R454, R457, R460): a flash write error makes the slot
INVALID with 0x7E, detail 5; an image that is whole is checked, and its slot becomes VALID with its SVN, or INVALID with the
detail of the first failure. The active slot and the running image stay. These commands complete: FW_STAGE,
FW_STAGE_COMPLETE, FW_ACTIVATE, ARB_COMMIT, FW_OPERATION_COMPLETE. The model's choices: That one page is asked for at a time
is assumption 28. -/
def Obligations.FirmwareOperations : Prop :=
  (∀ (s : State) (v : Via), s.admits v 0x22 = true →
    let u := s.takeRx v 0x22
    let ops : List (Nat × Instr × Bool) :=
      [(1, .fwStage v, !s.fw.trial), (2, .fwActivate v, (s.fw.slot !s.fw.active).st == 2), (3, .arbCommit v, !s.fw.trial)]
    (∀ row ∈ ops, s.power.ready = false → exec row.2.1 s =
      .next ((u.logEv { code := 0x75, unit := 0xFE, addr := .ctrl 0x610 }).csrReply v.tag 0x75 0))
    ∧ (∀ row ∈ ops, s.power.ready = true → s.fw.busy ≠ 0 ∨ row.2.2 = false → exec row.2.1 s =
      .next (((u.modFw fun f => { f with lastReject := 8 }).logEv { code := 0x7E, unit := 0xFA, sub := 8 }).csrReply v.tag 0x7E 0))
    ∧ (s.power.ready = true → s.fw.busy = 0 → s.fw.trial = false → ∃ t, exec (.fwStage v) s = .next t ∧ t.fw.busy = 1
      ∧ t.fw.slot (!s.fw.active) = { st := 1 } ∧ t.fw.slot s.fw.active = s.fw.slot s.fw.active ∧ t.fw.active = s.fw.active ∧ t.fw.got = 0
      ∧ (∃ r, t.hostReqs = s.hostReqs ++ [r] ∧ r.addr = s.fw.src ∧ r.len = 4096 ∧ r.write = false)
      ∧ t.outbox.getLast? = some (s.csrAnswer v 0) ∧ t.cores = s.cores ∧ t.tongs = s.tongs ∧ t.log = s.log)
    ∧ (s.power.ready = true → s.fw.busy = 0 → (s.fw.slot !s.fw.active).st = 2 → exec (.fwActivate v) s =
      .next ((u.modFw fun f => { f with busy := 2 }).csrReply v.tag 0 0))
    ∧ (s.power.ready = true → s.fw.busy = 0 → s.fw.trial = false → exec (.arbCommit v) s =
      .next ((u.modFw fun f => { f with busy := 3 }).csrReply v.tag 0 0))
    ∧ (s.fw.busy = 2 → exec .fwOperationComplete s =
      .next (s.modFw fun f => { f with busy := 0, active := !f.active, trial := true, attempted := false }))
    ∧ (s.fw.busy = 3 → exec .fwOperationComplete s = .next (s.modFw fun f => { f with
      busy := 0, arb := max f.arb f.svnRun, revoke := if f.runRevoke then f.revoke ||| 2 ^ (1 - f.runKey) else f.revoke })))
  ∧ (∀ (s : State), s.fw.busy = 1 →
    (∃ t, exec (.fwStageComplete false) s = .next t ∧ (t.fw.slot !s.fw.active).st = 3 ∧ t.fw.busy = 0 ∧ t.fw.lastReject = 5
      ∧ t.fw.slot s.fw.active = s.fw.slot s.fw.active ∧ t.fw.active = s.fw.active ∧ t.fw.svnRun = s.fw.svnRun
      ∧ t = ((s.modFw fun _ => t.fw).logEv { code := 0x7E, unit := 0xFA, sub := 5 }))
    ∧ (4096 ≤ s.fw.got → imageLen (s.fw.image.readN 0 4096) ≤ s.fw.got →
      let b := s.fw.image.readN 0 s.fw.got
      ∃ t, exec (.fwStageComplete true) s = .next t ∧ t.fw.busy = 0 ∧ t.fw.active = s.fw.active
        ∧ t.fw.slot s.fw.active = s.fw.slot s.fw.active ∧ t.cores = s.cores ∧ t.tongs = s.tongs
        ∧ (s.imageBad b = none → t.fw.slot (!s.fw.active) =
          { st := 2, svn := leAt b 7 1, digest := sha3 b, image := s.fw.image, len := s.fw.got })
        ∧ (∀ d, s.imageBad b = some d → (t.fw.slot !s.fw.active).st = 3 ∧ t.fw.lastReject = d)))

/-- Attestation (R461 to R463): a request that no check refuses captures its report at once and is RUNNING; a second one
meanwhile is refused with 0x7F, detail 3; ATTEST_DONE appends a signature of 2,420 bytes to what was captured and is DONE.
These commands complete: ATTEST_REQUEST, ATTEST_DONE. The model's choices: The signature is opaque (assumption 11), and the
moment of capture is assumption 28. -/
def Obligations.Attestation : Prop :=
  ∀ (s : State) (v : Via) (core : Nat) (tables : Bool) (nobj : Nat), s.admits v 0x22 = true → core < 256 → nobj < 32 →
    let u := s.takeRx v 0x22
    (s.fw.captured = [] → s.power.ready = true → nobj ≤ 16 → (tables = true → core < 192 ∧ s.retired core = false) →
      (∀ k < nobj, s.attObjBad k = false ∧ s.fw.attFieldBad k = false) → exec (.attestRequest v core tables nobj) s =
      .next ((u.modFw fun f => { f with
        attState := 1, attDetail := 0, captured := s.capture tables core nobj, report := [] }).csrReply v.tag 0 0))
    ∧ (s.fw.captured ≠ [] → exec (.attestRequest v core tables nobj) s =
      .next (((u.modFw fun f => { f with attState := 4, attDetail := 3 }).logEv { code := 0x7F, unit := 0xFA, sub := 3 }).csrReply v.tag 0x7F 0))
    ∧ (s.fw.captured ≠ [] → ∃ t sig, exec .attestDone s = .next t ∧ sig.length = 2420 ∧ t = { s with
      freeCtr := s.freeCtr + 1
      fw := { s.fw with attState := 3, report := s.fw.captured ++ sig, captured := [] } })

/-- Configuration records (R444 to R447): a staged record is checked, and refused with 0x73 and its detail or written; once
written it is STAGED, and announced unless it waits for a reset; an announcement takes CFG_ACT_GEN; and at its beat the
staged record is active: the live registers are its own, and 0x8A is logged with its GEN. These commands complete: CFG_STAGE,
CFG_STAGE_WRITTEN, ACTIVATION_ANNOUNCE, CFG_ACTIVATED. The model's choices: The outcome of the flash write comes with its row
(assumption 6). -/
def Obligations.ConfigurationRecords : Prop :=
  (∀ (s : State) (v : Via) (length : Nat) (gen : Word), s.admits v 0x22 = true → length < 2 ^ 17 →
    let u := s.takeRx v 0x22
    let b := s.cfg.stageData.readN 0 (min length 65536)
    exec (.cfgStage v length) s = .next ((match s.recordBad b with
      | some d => (u.modCfg fun c => { c with stage := 4, writing := none }).logEv { code := 0x73, unit := 0xF9, sub := d }
      | none => u.modCfg fun c => { c with stage := 2, writing := some (recordOf b) }).csrReply v.tag 0 0)
    ∧ exec (.activationAnnounce v gen) s = .next ((u.modCfg fun c => { c with
      actGen := gen.toNat
      armed := if c.active.any fun a => decide (gen.toNat ≤ a.gen) then c.armed else true }).csrReply v.tag 0 0))
  ∧ (∀ (s : State) (r : CfgRec), s.cfg.writing = some r →
    (r.atReset = true → exec .cfgStageWritten s = .next (s.modCfg fun c => { c with writing := none, staged := some r, stage := 3 }))
    ∧ (r.atReset = false → s.cfg.active = none → exec .cfgStageWritten s = .next (s.modCfg fun c => { c with
      writing := none, staged := some r, stage := 3, actBeat := r.actBeat, actGen := r.gen, armed := true })))
  ∧ (∀ (s : State) (r : CfgRec), s.power.ready = true → s.cfg.staged = some r → r.atReset = false → s.cfg.valid = true →
    s.cfg.armed = false → s.beat.count + 1 = r.actBeat → s.beat.sysCount = none → s.beat.lock ≠ .unlocked → s.lid.partnerValid = false →
    ∃ t, exec .cfgActivated s = .next t ∧ t.cfg.active = some r ∧ t.cfg.staged = none ∧ t.cfg.stage = 0 ∧ t.cfg.stale = false
      ∧ t.cfg.fp = r.fp ∧ t.cfg.prevFp = s.cfg.fp ∧ t.cfg.prevFpBeat = r.actBeat ∧ t.beat.count = r.actBeat ∧ t.cfg.pkgId = s.cfg.pkgId
      ∧ t.power.tWarn = leAt r.pkg 4 1 ∧ t.power.hostMode = leAt r.pkg 3 1 % 4 ∧ t.lid.nFlash = leAt r.pkg 8 1
      ∧ t.beat.maxSlips = (if leAt r.sys 3 1 = 0 then 16 else leAt r.sys 3 1) ∧ t.tongs = s.tongs ∧ t.cmd = s.cmd)

/-! ## The sideband (R481 to R483) -/

/-- A read answers bytes of Table 16.10 from the offset of the last access on and clears WRITE_IGNORED when it reads offset
0; a write moves the offset, writes TRAY_MODE at 0x61 only, and sets WRITE_IGNORED anywhere else; SETDASA gives a dynamic
address once. Another address is not answered. These commands complete: SIDEBAND_WRITE, SIDEBAND_READ, TRAY_MODE_WRITE,
SETDASA. The model's choices: The address rules of I3C and the wrap at 256 are assumption 27. -/
def Obligations.Sideband : Prop :=
  ∀ (s : State) (addr off n : Nat) (data : List Byte), off < 256 →
    (s.sideHears addr = true →
      (∃ t bytes, exec (.sidebandRead addr n) s = .next t ∧ bytes.length = n
        ∧ (∀ i < n, bytes[i]? = some (s.sideByte ((s.side.ptr + i) % 256))) ∧ t = { s with
        outbox := s.outbox ++ [OutItem.side bytes]
        side := { s.side with ptr := (s.side.ptr + n) % 256, ignored := t.side.ignored } }
        ∧ (t.side.ignored = true ↔ s.side.ignored = true ∧ ∀ i < n, (s.side.ptr + i) % 256 ≠ 0))
      ∧ (∃ t, exec (.sidebandWrite addr off data) s = .next t ∧ t.side.ptr = (off + data.length) % 256
        ∧ t.side.ignored = (s.side.ignored || (List.range data.length).any fun i => (off + i) % 256 != 0x61)
        ∧ ((∀ i < data.length, (off + i) % 256 ≠ 0x61) → t.power = s.power)
        ∧ t.outbox = s.outbox ∧ t.beat = s.beat ∧ t.log = s.log ∧ t.cores = s.cores ∧ t.cfg = s.cfg ∧ t.fw = s.fw)
      ∧ (∀ value < 256, exec (.trayModeWrite addr value) s = .next { s with
        power := { s.power with trayMode := value % 4 }
        side := { s.side with ptr := 0x62 } }))
    ∧ (s.sideHears addr = false → exec (.sidebandRead addr n) s = .next s ∧ exec (.sidebandWrite addr off data) s = .next s)
    ∧ (∀ a < 128, s.side.dynamic = none → (vget s.power.rails 10).st ≠ 2 → exec (.setdasa s.sideStatic a) s =
      .next { s with side := { s.side with dynamic := some a } })
    ∧ (∀ a d, s.side.dynamic = some d → exec (.setdasa s.sideStatic a) s = .next s)

/-! ## Power and temperature (R414 to R427) -/

/-- Rails (R414, R417 to R422). A warning counts, logs 0x80 and gives the ACTIVE dies that the rail holds a hold at the next
beat edge, at which they enter BROWN_HOLD; a die whose rails have recovered is ACTIVE again with 0x81, and one still held
after 2 ms is in DEGRADED_HOLD with 0x82. VDD_Cd below its reset threshold resets its die, VDD_AUX and the like the package.
These commands complete: RAIL_WARNING, BROWN_HOLD_ENTER, RAIL_RECOVERED, BROWN_HOLD_CLEARED, DEGRADED_HOLD, RAIL_BELOW_RESET.
The model's choices: The rounding of 2 ms to beats is assumption 7. -/
def Obligations.RailEvents : Prop :=
  (∀ (s : State) (r : Nat), r < 11 → ∃ t, exec (.railWarning r) s = .next t ∧ (vget t.power.rails r).st = 1 ∧ t.power.brown = true
      ∧ vget t.power.cnt 8 = satAdd 64 (vget s.power.cnt 8) 1 ∧ vget t.log.codeCnt 0x80 = satAdd 64 (vget s.log.codeCnt 0x80) 1
      ∧ (∀ d < 4, (t.die d).st = (s.die d).st)
      ∧ (∀ d < 4, (railDies r).contains d = true → (s.die d).st = .active →
        (t.die d).holdDue = some ((s.die d).holdDue.getD (s.beat.edge + 1)) ∧ r ∈ (t.die d).causes)
      ∧ (∀ d < 4, (railDies r).contains d = false → t.die d = s.die d) ∧ t.cores = s.cores ∧ t.beat = s.beat)
  ∧ (∀ (s : State) (d : Nat), d < 4 → (s.die d).st = .active → (s.die d).holdDue = some (s.beat.edge + 1) → s.beat.lock ≠ .unlocked →
    (∀ e < 4, e ≠ d → (s.die e).holdDue = none) → ∃ t, exec .brownHoldEnter s = .next t ∧ t.beat.edge = s.beat.edge + 1
      ∧ (t.die d).st = .brownHold ∧ (t.die d).holdEdge = s.beat.edge + 1 ∧ (t.die d).causes = (s.die d).causes
      ∧ (∀ e < 4, e ≠ d → t.die e = s.die e) ∧ ∀ n < 192, (t.core n).g = (s.core n).g ∧ (t.core n).pc = (s.core n).pc ∧ (t.core n).t = (s.core n).t)
  ∧ (∀ (s : State) (r : Nat), r < 11 → r ≠ 8 → (vget s.power.rails r).st ≠ 0 → exec (.railRecovered r) s =
    .next (s.modRail r fun x => { x with st := 0, recovered := s.beat.edge }))
  ∧ (∀ (s : State) (d r : Nat), d < 4 → (s.die d).st = .brownHold → (s.die d).causes = [r] → (vget s.power.rails r).st = 0 →
    (s.die d).holdEdge ≤ (vget s.power.rails r).recovered → (vget s.power.rails r).recovered < s.beat.edge →
    (vget s.power.rails r).recovered ≤ (s.die d).holdEdge + 53125 → s.heldMsgs = [] → s.cmd.cmds = [] → (∀ n < 192, (s.core n).busy = false) → s.noCopies = true →
    ∃ t, exec (.brownHoldCleared d) s = .next t ∧ (t.die d).st = .active ∧ (t.die d).causes = []
      ∧ vget t.log.codeCnt 0x81 = satAdd 64 (vget s.log.codeCnt 0x81) 1 ∧ (∀ e < 4, e ≠ d → t.die e = s.die e) ∧ t.beat = s.beat)
  ∧ (∀ (s : State) (d r : Nat), d < 4 → (s.die d).st = .brownHold → (s.die d).causes = [r] → (vget s.power.rails r).st = 1 →
    (s.die d).holdEdge + 53125 ≤ s.beat.edge → s.cmd.cmds = [] → s.heldMsgs = [] → s.noCopies = true → (∀ n < 192, (s.core n).heldAt d = []) →
    ∃ t, exec (.degradedHold d) s = .next t ∧ (t.die d).st = .degradedHold ∧ t.power.degraded = true
      ∧ (∀ e < 4, e ≠ d → t.die e = s.die e) ∧ t.beat = s.beat)
  ∧ (∀ (s : State),
    (∀ r < 4, s.cmd.cmds = [] → s.heldMsgs = [] → s.noCopies = true → (∀ n < 192, (s.core n).heldAt r = []) → ∃ t, exec (.railBelowReset r) s = .next t ∧ (t.die r).st = .reset
      ∧ (vget t.power.rails r).st = 2 ∧ (∀ n < 192, n / 48 = r → (t.core n).inReset = true ∧ (t.core n).st = .idle)
      ∧ (∀ d < 4, d ≠ r → (t.die d).st = (s.die d).st))
    ∧ exec (.railBelowReset 9) s = .next ((s.modRail 9 fun x => { x with st := 2 }).modLid fun l => { l with
      flashOk := false, nvmeReady := false, pcieState := 0, pcieWidth := 0, pcieRate := 0, pcieFlit := false })
    ∧ (∀ r ∈ [5, 6, 7, 8, 10], ∃ t, exec (.railBelowReset r) s = .next t ∧ t.power.cause = 4 ∧ t.power.inReset = true ∧ t.beat = {}
      ∧ t.log = {} ∧ (vget t.power.rails r).st = 2 ∧ vget t.power.cnt 12 = 1))

/-- The governor (R423, R424): at the end of each period of 256 beats ME duty falls by one, to 4 of 16 at least, when the
package drew more than its cap, and rises by one after four periods at less than 97 % of it; a new cap mode takes effect at
the end of a period, with record 0x86. Temperature (R426): a reading that crosses T_WARN upward sets THERM_WARN with event
0x83; each 256-beat period at 5 °C above it or more takes one from the die's ME duty, of every C-die for the H-die, down to
4, counted in PWR_CNT_9, the first with record 0x84; each period below T_WARN gives one back. And PCIE_PORT_RETRAINED: ports
of 1, 2 or 4 lanes are up, any other is not (R422). These commands complete: GOVERNOR_PERIOD, THERMAL_WARNING,
THERMAL_PERIOD, PCIE_PORT_RETRAINED. The model's choices: The corners of the thresholds are assumption 26. -/
def Obligations.PowerPeriodsAndRootPort : Prop :=
  ((∀ (s : State) (watts : Nat) (volts : List Nat), s.beat.edge = s.power.govAt + 256 → s.power.cap ≠ s.power.capInForce →
    ∃ t, exec (.governorPeriod watts volts) s = .next t ∧ t.power.capInForce = s.power.cap ∧ t.power.watts = watts
      ∧ vget t.log.codeCnt 0x86 = satAdd 64 (vget s.log.codeCnt 0x86) 1 ∧ t.cores = s.cores ∧ t.beat = s.beat)
  ∧ ∀ (s : State) (watts : Nat) (volts : List Nat), s.beat.edge = s.power.govAt + 256 → s.power.cap = s.power.capInForce →
    let w := capWatts s.power.cap
    let duty := (s.die 0).govDuty
    ∃ t, exec (.governorPeriod watts volts) s = .next t ∧ t.power.watts = watts ∧ t.power.govAt = s.beat.edge
      ∧ (w < watts → ∀ d < 4, (t.die d).govDuty = max 4 (duty - 1))
      ∧ (watts ≤ w → 97 * w ≤ 100 * watts → t.power.lowRun = 0 ∧ ∀ d < 4, (t.die d).govDuty = duty)
      ∧ (100 * watts < 97 * w → s.power.lowRun < 3 → t.power.lowRun = s.power.lowRun + 1 ∧ ∀ d < 4, (t.die d).govDuty = duty)
      ∧ (100 * watts < 97 * w → 3 ≤ s.power.lowRun → t.power.lowRun = 0 ∧ ∀ d < 4, (t.die d).govDuty = min 16 (duty + 1))
      ∧ (∀ i < 11, ∀ x, volts[i]? = some x → (vget t.power.rails i).volt = x ∧ (vget t.power.rails i).st = (vget s.power.rails i).st)
      ∧ (∀ d < 4, (t.die d).st = (s.die d).st ∧ (t.die d).thermDuty = (s.die d).thermDuty) ∧ t.beat = s.beat ∧ t.cores = s.cores
      ∧ (watts ≤ w → t.power.capUnmet = s.power.capUnmet ∧ t.log = s.log))
  ∧ ((∀ (s : State) (d temp : Nat), d < 5 → vget s.power.tmax d ≤ s.power.tWarn → s.power.tWarn < temp →
    exec (.thermalWarning d temp) s = .next ((s.modPower fun p => { p with
      tmax := vset p.tmax d temp, thermWarn := true }).logEv { code := 0x83, die := d, unit := 0xF8, inst := d }))
  ∧ (∀ (s : State) (d temp : Nat), d < 5 → temp ≤ s.power.tWarn ∨ s.power.tWarn < vget s.power.tmax d →
    exec (.thermalWarning d temp) s = .next (s.modPower fun p => { p with tmax := vset p.tmax d temp }))
  ∧ (∀ (s : State) (d temp : Nat), d < 4 → s.beat.edge = vget s.power.thermAt d + 256 →
    (s.power.tWarn + 5 ≤ temp → ∃ t, exec (.thermalPeriod d temp) s = .next t ∧ (t.die d).thermDuty = max 4 ((s.die d).thermDuty - 1)
      ∧ vget t.power.throttled d = true ∧ vget t.power.cnt 9 = satAdd 64 (vget s.power.cnt 9) 1 ∧ vget t.power.thermAt d = s.beat.edge
      ∧ vget t.power.tmax d = temp ∧ (vget s.power.throttled d = true → t.log = s.log)
      ∧ (vget s.power.throttled d = false → vget t.log.codeCnt 0x84 = satAdd 64 (vget s.log.codeCnt 0x84) 1)
      ∧ (∀ e < 4, e ≠ d → t.die e = s.die e) ∧ t.cores = s.cores)
    ∧ (temp < s.power.tWarn → vget s.power.throttled 4 = false → exec (.thermalPeriod d temp) s = .next ((s.modPower fun p => { p with
      tmax := vset p.tmax d temp, thermAt := vset p.thermAt d s.beat.edge, throttled := vset p.throttled d false }).modDie d fun x =>
        { x with thermDuty := min 16 (x.thermDuty + 1) }))
    ∧ (s.power.tWarn ≤ temp → temp < s.power.tWarn + 5 → exec (.thermalPeriod d temp) s = .next (s.modPower fun p => { p with
      tmax := vset p.tmax d temp, thermAt := vset p.thermAt d s.beat.edge })))
  ∧ (∀ (s : State) (temp : Nat), s.beat.edge = vget s.power.thermAt 4 + 256 → s.power.tWarn + 5 ≤ temp →
    ∃ t, exec (.thermalPeriod 4 temp) s = .next t ∧ (∀ e < 4, (t.die e).thermDuty = max 4 ((s.die e).thermDuty - 1))
      ∧ vget t.power.throttled 4 = true ∧ vget t.power.cnt 9 = satAdd 64 (vget s.power.cnt 9) 1 ∧ t.cores = s.cores)
  ∧ (∀ (s : State) (width rate : Nat) (flashOk : Bool),
    (width ∈ [1, 2, 4] → exec (.pciePortRetrained width rate flashOk) s = .next (s.modLid fun l => { l with
      pcieState := 2, pcieWidth := width, pcieRate := rate, pcieFlit := true, nvmeReady := flashOk, flashOk := flashOk }))
    ∧ (width ∉ [1, 2, 4] → exec (.pciePortRetrained width rate flashOk) s = .next (s.modLid fun l => { l with
      pcieState := 3, pcieWidth := 0, pcieRate := 0, pcieFlit := false, nvmeReady := false, flashOk := false }))))

/-! ## Counter clears (R485 to R488) -/

/-- HLT_CLR takes a clear of a bank and a target that waits, for the beat of HLT_CLR_AT or the next edge; a bank or target
that Table 17.1 does not list, and a seventeenth clear, are refused with 0x1F, a retired core with 0x13. COUNTER_CLEAR zeroes
that bank of that target and nothing else, and HLT_CLR_LAST names its beat (R486, R487). These commands complete: HLT_CLR,
COUNTER_CLEAR. The model's choices: The order of the refusals is assumption 50. -/
def Obligations.CounterClears : Prop :=
  ∀ (s : State) (v : Via) (bank target : Nat), s.admits v 0x22 = true → s.power.ready = true → bank < 16 → target < 256 →
    let u := s.takeRx v 0x22
    let refused := fun (code : Nat) => (u.logEv { code := code, unit := 0xFE, addr := .ctrl 0x300068 }).csrReply v.tag code 0
    let others := s.log.clears.filter fun c => !(c.bank == bank && c.target == target)
    (target < bankTargets bank → (bank = 0 → s.retired target = false) → others.length < 16 → exec (.hltClr v bank target) s =
      .next ((({ u with log := { u.log with clears := others ++ [{ bank := bank, target := target, edge := s.beat.edge
                                                                   at_ := if s.beat.count < s.log.clrAt.toNat then some s.log.clrAt.toNat else none }] } } : State)).csrReply v.tag 0 0))
    ∧ (bankTargets bank ≤ target → exec (.hltClr v bank target) s = .next (refused 0x1F))
    ∧ (bank = 0 → target < 192 → s.retired target = true → exec (.hltClr v bank target) s = .next (refused 0x13))
    ∧ (target < bankTargets bank → (bank = 0 → s.retired target = false) → 16 ≤ others.length →
      exec (.hltClr v bank target) s = .next (refused 0x1F))
    ∧ (∀ e, s.log.clears = [{ bank := bank, target := target, at_ := none, edge := e }] → s.beat.edge = e + 1 →
      let w : State := { s with log := { s.log with clears := [], clrLast := s.beat.count } }
      (bank = 0 → exec (.counterClear 0 target) s = .next (w.modCore target CoreSt.clearCounters))
      ∧ (bank = 1 → exec (.counterClear 1 target) s = .next (w.modRegion target fun g => { g with cnt := Vector.replicate 16 0 }))
      ∧ (bank = 2 → exec (.counterClear 2 target) s = .next (w.modPort target fun p => { p with
        cnt := Vector.replicate 16 0, corrected := Vector.replicate 8 0, attrib := Vector.replicate 8 0 }))
      ∧ (bank = 3 → exec (.counterClear 3 target) s = .next (w.modCmdU fun c => { c with cli := vset c.cli target (Vector.replicate 16 0) }))
      ∧ (bank = 4 → exec (.counterClear 4 target) s = .next (w.modBeat fun b => { b with cnt := Vector.replicate 32 0 }))
      ∧ (bank = 5 → exec (.counterClear 5 target) s = .next (w.modTongs fun t => { t with cnt := Vector.replicate 32 0 }))
      ∧ (bank = 6 → exec (.counterClear 6 target) s = .next (w.modInteg fun i => { i with icnt := Vector.replicate 32 0 }))
      ∧ (bank = 7 → exec (.counterClear 7 target) s = .next (w.modCmdU fun c => { c with cnt := Vector.replicate 16 0 }))
      ∧ (bank = 8 → exec (.counterClear 8 target) s = .next (w.modLid fun l => { l with cnt := Vector.replicate 16 0 }))
      ∧ (bank = 9 → exec (.counterClear 9 target) s = .next (w.modPower fun p => { p with cnt := Vector.replicate 16 0 }))
      ∧ (bank = 0xA → exec (.counterClear 0xA target) s = .next { w with log := { w.log with
        codeCnt := Vector.replicate 256 0, suppressed := 0, overwritten := 0 } })
      ∧ (bank = 0xF → ∃ t, exec (.counterClear 0xF target) s = .next t ∧ (∀ n < 192, (t.core n).seqCnt = Vector.replicate 16 0
          ∧ (t.core n).seqCycles = 0 ∧ (t.core n).g = (s.core n).g ∧ (t.core n).skillet = (s.core n).skillet)
        ∧ t.beat.cnt = Vector.replicate 32 0 ∧ t.lid.cnt = Vector.replicate 16 0 ∧ t.power.cnt = Vector.replicate 16 0
        ∧ t.log.codeCnt = Vector.replicate 256 0 ∧ t.log.ring = s.log.ring ∧ t.beat.count = s.beat.count))

/-! ## The Fjarner ports (R312 to R345, R506) -/

/-- Training (R339, R340). DETECT, EQUALISE and LOCK go on with at least 4 lanes; with fewer, and past a step's limit, full
training goes DOWN with 0x60 or 0x65 and a retrain falls back to full training. IDENT fills FJL_NEIGH and answers with this
end's verdict; 64 ECHOes and both verdicts make the port ACTIVE with FJL_LAT as measured. A DOWN port trains again at once
when the far end is detected, and 2^25 beats after it went DOWN. Lanes and width (R323, R324, R339, R506): RETRAIN takes a
port that carries flits to LOCK, keeping its sequence state, counted in FJL_CNT_7, and so does a loss of lock on fewer than 4
usable lanes; LANE_OFF is stored, and where it leaves at least 4 lanes a width change begins; a WIDTH flit is answered, and
the port goes on at the new width with a replay. IDENT, ECHO and WIDTH are sent as flits (R315). These commands complete:
IDENT, ECHO, WIDTH, FAR_END_DETECT, DETECT_DONE, EQUALISE_DONE, LOCK_DONE, IDENTIFY_DONE, TRAINING_STEP_TIMEOUT,
TRAINING_RETRY, LOSS_OF_LOCK, RETRAIN, LANE_OFF_WRITE. The model's choices: The lanes that lock are operands (assumption 6).
-/
def Obligations.PortTrainingAndWidths : Prop :=
  (∀ (s : State) (p lanes : Nat), p < 17 →
    let q := s.port p
    (∀ row ∈ ([(.detectDone p lanes, .detect, .equalise, 0x60), (.equaliseDone p lanes, .equalise, .lock, 0x60),
        (.lockDone p lanes, .lock, .identify, 0x65)] : List (Instr × TrainStep × TrainStep × Nat)), q.step = row.2.1 →
      let excluded := maskPlus q.excluded (maskMinus 0xFF lanes)
      let kept := popc { q with excluded := excluded }.wanted 8
      let u := s.modPort p fun q => { q with excluded := excluded, step := row.2.2.1, since := s.beat.edge }
      (q.st = .training ∨ q.st = .retraining → 4 ≤ kept → row.2.2.1 ≠ .identify → exec row.1 s = .next u)
      ∧ (q.st = .training ∨ q.st = .retraining → 4 ≤ kept → row.2.2.1 = .identify →
        exec row.1 s = .next ((u.emit p 5 (s.ownIdent p false false).payload).sendEchoes p)
        ∧ ∃ t, exec row.1 s = .next t ∧ (t.port p).step = .identify ∧ (t.port p).excluded = excluded ∧ (t.port p).since = s.beat.edge
          ∧ (t.port p).sent.length = q.sent.length + 65 ∧ t.freeCtr = s.freeCtr + 64 ∧ t.outbox = s.outbox ∧ t.log = s.log
          ∧ (∀ r < 17, r ≠ p → t.port r = s.port r) ∧ t.cores = s.cores ∧ t.cmd = s.cmd)
      ∧ (q.st = .training → kept < 4 → exec row.1 s = .next ((s.logEv (portEv p row.2.2.2)).modPort p fun q =>
        { q with st := .down, active := 0, widthTo := none, since := s.beat.edge }))
      ∧ (q.st = .retraining → kept < 4 → exec row.1 s = .next (s.modPort p fun q => q.train s.beat.edge)))
    ∧ (q.st = .training → s.beat.edge = q.since + q.step.limit →
      let down := fun (e : LogEv) => (s.logEv e).modPort p fun q => { q with st := .down, active := 0, widthTo := none, since := s.beat.edge }
      (q.step ≠ .identify → exec (.trainingStepTimeout p) s = .next (down (portEv p (if q.step = .lock then 0x65 else 0x60))))
      ∧ (q.step = .identify → ∀ row ∈ ([(some false, some true, 1), (some false, none, 1), (some true, none, 3)] :
        List (Option Bool × Option Bool × Nat)), q.ownCheck = row.1 → q.farVerdict = row.2.1 →
        exec (.trainingStepTimeout p) s = .next (down { portEv p 0x62 with sub := row.2.2, cause := p })))
    ∧ (q.st = .retraining → s.beat.edge = q.since + q.step.limit →
      exec (.trainingStepTimeout p) s = .next (s.modPort p fun q => q.train s.beat.edge))
    ∧ (q.st = .down → s.portOn p = true → s.beat.edge = q.since + 2 ^ 25 →
      exec (.trainingRetry p) s = .next (s.modPort p fun q => q.train s.beat.edge))
    ∧ (q.st = .down → q.allowed ≠ 0 → exec (.farEndDetect p) s = .next (s.modPort p fun q => q.train s.beat.edge))
    ∧ (∀ i : IdentFlit, q.identifies = true → i.reject = false → exec (.ident p i) s = .next ((s.modPort p fun q =>
      { q with neighValid := true, neighRole := i.role, neighPort := i.port % 32, neighPkg := i.pkg, ownCheck := some (s.identOk p i)
               farVerdict := if i.verdict then some true else q.farVerdict }).emit p 5
        (s.ownIdent p (s.identOk p i) (!s.identOk p i)).payload))
    ∧ (∀ rt hold, q.identifies = true → q.echoes.length < 64 → exec (.echo p true rt hold) s =
      .next (s.modPort p fun q => { q with echoes := q.echoes ++ [rt - hold] }))
    ∧ (∀ cyc hold, q.identifies = true → exec (.echo p false cyc hold) s = .next (s.emit p 6 (echoPayload true cyc hold)))
    ∧ (q.st = .training → q.step = .identify → q.ownCheck = some true → q.farVerdict = some true → 64 ≤ q.echoes.length →
      q.latency ≤ 408 → 4 ≤ popc (maskBoth lanes q.wanted) 8 → q.waiting = Vector.replicate 6 [] → s.power.ready = false →
      s.power.stage ≠ 1 → ∀ expect, exec (.identifyDone p lanes expect) s = .next (s.modPort p fun q => { q with
        st := .active, active := maskBoth lanes q.wanted, lat := q.latency, flitNo := 0, lastKeepalive := s.beat.edge, agreeRun := 0
        credits := vcSlots, txSeq := 0, rxExpect := 0, rxLast := none, nakSeq := 0 })))
  ∧ (∀ (s : State) (p off : Nat), p < 17 →
    let q := s.port p
    let again := fun (s : State) => (s.modPort p fun q => { q with
      st := .retraining, step := .lock, ownCheck := none, farVerdict := none, echoes := [], nakRun := 0, nakOut := false
      widthTo := none, agreeRun := 0, since := s.beat.edge }).fjlCnt p 7 1
    (∀ v : Via, s.admits v 0x22 = true → s.power.ready = true → off < 256 →
      let u := s.takeRx v 0x22
      let w := { q with laneOff := off }.wanted
      (q.laneOff = off → exec (.laneOffWrite v p off) s = .next (u.csrReply v.tag 0 0)
        ∧ exec (.retrain v p off) s = .next ((if q.carries then again u else u).csrReply v.tag 0 0))
      ∧ (q.laneOff ≠ off → q.carries = false ∨ popc w 8 < 4 ∨ w = q.active →
        exec (.laneOffWrite v p off) s = .next ((u.modPort p fun q => { q with laneOff := off }).csrReply v.tag 0 0))
      ∧ (q.laneOff ≠ off → q.carries = true → 4 ≤ popc w 8 → w ≠ q.active → exec (.laneOffWrite v p off) s =
        .next (((u.modPort p fun q => { q with laneOff := off, widthTo := some w }).emit p 7 [toB w]).csrReply v.tag 0 0)))
    ∧ (∀ lanes, q.carries = true ∨ q.st = .retraining → exec (.lossOfLock p lanes) s =
      .next (if popc (maskBoth q.active lanes) 8 < 4 then again s else s))
    ∧ (∀ (h : FlitHdr) (mask : Nat), q.carries = true → 4 ≤ popc mask 8 → q.unacked = [] → q.waiting = Vector.replicate 6 [] →
      let u := s.flitHdr p h
      let wide := fun (x : State) => (x.modPort p fun q => { q with active := mask, widthTo := none, flitNo := 0 }).fjlCnt p 8 1
      (q.widthTo = some mask → exec (.width p h mask) s = .next (wide u))
      ∧ (q.widthTo = none → exec (.width p h mask) s = .next (wide (u.emit p 7 [toB mask])))))

/-- Flits (R316 to R321, R325, R343 to R345). Every flit frees what it acknowledges and returns its credits. A DATA flit out
of sequence is discarded, and a NAK that names the expected SEQ goes out unless one is out; a NAK and a replay timeout send
the unacknowledged flits again, counted in FJL_CNT_6; the eighth NAK of one SEQ retrains with 0x66. Agreeing keepalives are
counted in FJL_CNT_11, a disagreeing one makes the port MISMATCH with 0x72, and none for 12,288 beats retrains with 0x6C.
These commands complete: DATA_FLIT, IDLE_FLIT, NAK, NAK_REPEAT, REPLAY_TIMEOUT, KEEPALIVE, KEEPALIVE_SEND, KEEPALIVE_LOST.
The model's choices: The order of Reed-Solomon symbols is assumption 30. -/
def Obligations.PortFlits : Prop :=
  ∀ (s : State) (p : Nat), p < 17 →
    let q := s.port p
    let resent := fun (t : State) (n : Nat) => t.outbox = s.outbox ∧ (t.port p).unacked = q.unacked
      ∧ (t.port p).sent.length = q.sent.length + n ∧ vget (t.port p).cnt 6 = satAdd 64 (vget q.cnt 6) n
    let naks := fun (u : State) => ((u.modPort p fun q => { q with nakOut := true }).fjlCnt p 5 1).emit p 4 (nakPayload (u.port p).rxExpect)
    q.carries = true → q.waiting = Vector.replicate 6 [] → s.lid.riskFlits + q.unacked.length < 1024 →
    (∀ h : FlitHdr, h.cvc < 6 → exec (.idleFlit p h) s = .next (s.modPort p fun q =>
      let g : Port := { q.corrections h.corr with flitNo := q.flitNo + 1, rxTotal := q.rxTotal + 1 }
      let f : Port := if h.ackv && q.unacked.any fun f => f.seq == h.ack then
          { g with unacked := (q.unacked.dropWhile fun f => f.seq != h.ack).drop 1, lastAck := s.beat.edge, nakRun := 0 } else g
      { f with credits := vmod q.credits h.cvc fun c => c + h.ccount }))
    ∧ (q.nakOut = true → exec (.nakRepeat p) s = .next (naks s))
    ∧ (∀ f fs, q.unacked = f :: fs → ∃ t, exec (.replayTimeout p) s = .next t ∧ resent t (fs.length + 1) ∧ t.cores = s.cores)
    ∧ (∀ f fs, q.unacked = f :: fs → q.nakRun = 0 → ∃ t, exec (.nak p {} f.seq) s = .next t ∧ resent t (fs.length + 1)
      ∧ (t.port p).nakSeq = f.seq ∧ (t.port p).nakRun = 1 ∧ t.cores = s.cores)
    ∧ (∀ seq, q.nakRun = 7 → q.nakSeq = seq → ∃ t, exec (.nak p {} seq) s = .next t ∧ (t.port p).st = .retraining
      ∧ vget t.log.codeCnt 0x66 = satAdd 64 (vget s.log.codeCnt 0x66) 1 ∧ (p < 16 → (t.port p).unacked = q.unacked))
    ∧ (∀ raw, raw.length ≠ 256 → exec (.dataFlit p raw) s = .next s)
    ∧ (∀ raw, raw.length = 256 → (fecDecode (raw.map (·.toNat))).2.2 = 0 →
      let d := (fecDecode (raw.map (·.toNat))).1
      let x := flitFields d
      let c := s.modPort p fun q => q.corrections (fecDecode (raw.map (·.toNat))).2.1
      let u := c.flitHdr p x.h
      (flitCrc d = crc64 (d.take 232) → x.ftype = 1 → x.seq = (u.port p).rxExpect → (u.port p).rxRoom x.pvc = true →
        exec (.dataFlit p raw) s = .next (((u.modPort p fun q => { q with
          rxExpect := (q.rxExpect + 1) % 4096, rxLast := some x.seq, nakOut := false }).fjlCnt p 1 1).payloadIn p x))
      ∧ (flitCrc d = crc64 (d.take 232) → x.ftype = 1 → x.seq ≠ (u.port p).rxExpect ∨ (u.port p).rxRoom x.pvc = false →
        exec (.dataFlit p raw) s = .next (if (u.port p).nakOut then u else naks u))
      ∧ (flitCrc d ≠ crc64 (d.take 232) →
        let b := (c.fjlCnt p 4 1).modPort p fun q => { q with flitNo := q.flitNo + 1, rxTotal := q.rxTotal + 1 }
        exec (.dataFlit p raw) s = .next (if q.nakOut then b else naks b)))
    ∧ (∀ (h : FlitHdr) (k : KeepFlit), k.fp = s.fpAt k.beat → q.st = .active → ∃ t, exec (.keepalive p h k) s = .next t
      ∧ (t.port p).fpRx = k.fp ∧ (t.port p).lastKeepalive = s.beat.edge ∧ (t.port p).st = .active
      ∧ vget (t.port p).cnt 11 = satAdd 64 (vget q.cnt 11) 1 ∧ t.log = s.log ∧ t.cores = s.cores)
    ∧ (∀ (h : FlitHdr) (k : KeepFlit), p < 16 → k.fp ≠ s.fpAt k.beat → q.st = .active → ∃ t, exec (.keepalive p h k) s = .next t
      ∧ (t.port p).st = .mismatch ∧ vget (t.port p).cnt 12 = satAdd 64 (vget q.cnt 12) 1
      ∧ vget t.log.codeCnt 0x72 = satAdd 64 (vget s.log.codeCnt 0x72) 1 ∧ t.cores = s.cores)
    ∧ (s.beat.lock ≠ .unlocked → s.beat.sysCount = none → s.beat.adoptDue = none → s.tongs.merge = [] → s.lid.riskBeats < 65536 →
      s.lid.risk + 255 < s.lid.high → s.beat.count % 4096 = 0x7FF → ∃ t, exec .keepaliveSend s = .next t
      ∧ t.beat.count = s.beat.count + 1 ∧ t.port p = (q.beats s.beat.edge 1).emit 3 ({ pkg := s.cfg.pkgId, port := p, st := s.keepState p
                                                                                       fp := leAt s.cfg.fp 0 8, beat := s.beat.count + 1 } : KeepFlit).payload
      ∧ ∀ n < 192, (t.core n).g = (s.core n).g ∧ (t.core n).pc = (s.core n).pc)
    ∧ (s.beat.edge = q.lastKeepalive + 12288 → ∃ t, exec (.keepaliveLost p) s = .next t ∧ (t.port p).st = .retraining
      ∧ (p < 16 → (t.port p).unacked = q.unacked) ∧ vget t.log.codeCnt 0x6C = satAdd 64 (vget s.log.codeCnt 0x6C) 1 ∧ t.cores = s.cores)

/-! ## Events of a core (R55 to R57, R74, R79, R81, R89, R96, R97, R206, R218, R377) -/

/-- What moves a core on. IBUF_REFILL reads the line of the PC, or raises 0x4D past the program region (R74).
INSTRUCTION_COMPLETE ends the oldest instruction of the ME or the VE, which then signals (R79, R81). At its deadline a
pending race is LOST, counted in SEQ_CNT_1 (R89). At the not-before beat and at the start beat the clock stands there and the
core goes on (R55, R56). At each beat edge a bucket gains RATE, up to BURST (R206). These commands complete:
START_BEAT_REACHED, IBUF_REFILL, INSTRUCTION_COMPLETE, RACE_DEADLINE, NOT_BEFORE_REACHED, LEVEL_GAIN. The model's choices:
That such rows run the clock to their beat is assumption 1. -/
def Obligations.CoreProgress : Prop :=
  ∀ (s : State) (n : Nat), n < 192 →
    let c := s.core n
    (c.fetches = true → c.lineHeld = false → c.pc < c.progEnd → exec (.ibufRefill n) s = .next (s.modCore n fun c =>
      { c with ibuf := (c.pc / 1024 :: c.ibuf).take 16, late := ageLate 16 c.late, seqCnt := vmod c.seqCnt 6 fun x => satAdd 64 x 16 }))
    ∧ (c.fetches = true → c.lineHeld = false → c.progEnd ≤ c.pc → ∃ t, exec (.ibufRefill n) s = .next t
      ∧ exec (.faultRaise n 0 0x4D c.pc .none 0) s = .next t)
    ∧ (∀ (q : Nat) (f : Flight), q = 1 ∧ f.e.op = 0x05 ∨ q = 2 ∧ f.e.op ≠ 0x21 → c.executes q f = true →
      exec (.instructionComplete n q 0 0) s = .next (s.modCore n fun c =>
        { c.completed q f with
          ve := if q = 2 then { c.ve with cnt := vmod c.ve.cnt 0 fun x => satAdd 64 x 1 } else c.ve }))
    ∧ (∀ (k : Nat) (r : RaceSlot), k < 4 → vget c.races k = r → r.st = .pending → c.beatBase + r.dl ≤ s.now → c.busy = true → c.cur = none →
      ({ c with races := vset c.races k {} } : CoreSt).enginesIdle = true →
      exec (.raceDeadline n k) s = .next (s.modCore n fun c =>
        { ({ c with races := vset c.races k { r with st := .lost } } : CoreSt) with seqCnt := vmod c.seqCnt 1 fun x => satAdd 64 x 1 }))
    ∧ (∀ e : Entry, c.busy = true → c.cur = some e → e.q = 0 → e.op = 0x00 → e.null = false → e.h = { nb := e.h.nb } → e.h.nb ≠ 0 →
      c.enginesIdle = true → s.beat.lock ≠ .unlocked → s.beat.sysCount = none → s.beat.adoptDue = none → s.tongs.merge = [] → s.now < c.beatBase + e.h.nb.toNat →
      ∃ t, exec (.notBeforeReached n 0) s = .next t ∧ t.now = c.beatBase + e.h.nb.toNat ∧ (t.core n).cur = none
        ∧ (t.core n).pc = e.pc + 16 ∧ (t.core n).g = c.g ∧ (t.core n).t = c.t ∧ (t.core n).skillet = c.skillet)
    ∧ (c.st = .waitingStart → c.cur = none → c.enginesIdle = true → s.beat.lock ≠ .unlocked → s.beat.sysCount = none → s.beat.adoptDue = none → s.tongs.merge = [] → s.now < c.beatBase →
      ∃ t, exec (.startBeatReached n) s = .next t ∧ t.now = c.beatBase ∧ (t.core n).st = .running ∧ (t.core n).pc = c.pc
        ∧ (t.core n).g = c.g ∧ (t.core n).skillet = c.skillet)
    ∧ (c.busy = true → c.cur = none → c.enginesIdle = true → s.beat.lock ≠ .unlocked → s.beat.sysCount = none → s.beat.adoptDue = none → s.tongs.merge = [] →
      ∃ t, exec (.levelGain n) s = .next t ∧ t.now = s.now + 1 ∧ (∀ i < 3, let b := vget c.sm.buckets i
        b.pending = none → b.enable = true →
          (vget (t.core n).sm.buckets i).level = min (b.level + b.rate) (max 1 b.burst * 2048))
        ∧ (t.core n).pc = c.pc ∧ (t.core n).g = c.g ∧ (t.core n).skillet = c.skillet)

/-- How a core's work ends. A draining core whose work has completed is IDLE (R97), and so is an aborting core with no store
outstanding (R218): its windows are closed, it has no command, and its registers stay. A core with no progress for LIMIT
beats raises 0x4E (R96). A command that is to be killed stops on every core at its beat edge, with one record (R377). These
commands complete: ABORTING_COMPLETE, DRAIN_COMPLETE, NO_PROGRESS, KILLED. -/
def Obligations.CoreEnds : Prop :=
  ∀ (s : State) (n : Nat), n < 192 →
    let c := s.core n
    let idled := fun (t : State) (k : Nat) => (t.core n).st = .idle ∧ (t.core n).cmd = none ∧ (t.core n).idleSince = s.beat.edge
      ∧ (t.core n).g = c.g ∧ (t.core n).skillet = c.skillet ∧ (∀ i < 16, (vget (t.core n).wins i).isOpen = false)
      ∧ vget (t.core n).seqCnt k = satAdd 64 (vget c.seqCnt k) 1 ∧ (∀ m < 192, m ≠ n → t.core m = s.core m) ∧ t.beat = s.beat
      ∧ t.tongs = s.tongs ∧ t.log = s.log
    (∀ a k, c.st = .draining → c.cur = none → c.enginesIdle = true → c.puts = [] → c.cmd = some a → s.getCmd a = some k →
      k.stage = .running → (∃ m ∈ k.cores, m ≠ n ∧ k.ended.contains m = false) →
      ∃ t, exec (.drainComplete n) s = .next t ∧ idled t 10 ∧ ∃ k', t.getCmd a = some k' ∧ k'.ended = k.ended ++ [n] ∧ k'.stage = .running)
    ∧ (∀ a, c.st = .aborting → c.storesOut = false → c.cmd = some a → (∃ m < 192, m ≠ n ∧ (s.core m).cmd = some a ∧ (s.core m).st ≠ .idle) →
      ∃ t, exec (.abortingComplete n) s = .next t ∧ idled t 11 ∧ t.cmd = s.cmd)
    ∧ (c.st = .aborting → c.storesOut = false → c.cmd = none → ∃ t, exec (.abortingComplete n) s = .next t ∧ idled t 11 ∧ t.cmd = s.cmd)
    ∧ (c.st = .running ∨ c.st = .draining → c.wdog ≠ 0 → s.watchExempt n = false → c.progress = false → s.beat.lock ≠ .unlocked → s.beat.adoptDue = none →
      ∃ t, exec (.noProgress n) s = .next t
      ∧ exec (.faultRaise n 0 0x4E c.pc .none 0) (s.advance (c.wdog - c.noProg)) = .next t)
    ∧ (∀ a k code sub cause pkg, s.getCmd a = some k → k.kill = some (code, sub, cause, pkg) → k.killEdge ≤ s.beat.edge → k.stage = .running →
      (∃ m < 192, (s.core m).cmd = some a ∧ (s.core m).busy = true) → ∃ t, exec (.killed a) s = .next t
        ∧ (∀ m < 192, (s.core m).cmd = some a → (s.core m).busy = true → (t.core m).st = .aborting ∧ (t.core m).abortCode = code
          ∧ (∀ i, vget (t.core m).queues i = []) ∧ (t.core m).g = (s.core m).g)
        ∧ (∀ m < 192, (s.core m).cmd ≠ some a → t.core m = s.core m)
        ∧ (∃ k', t.getCmd a = some k' ∧ k'.stage = .aborting ∧ k'.code = code ∧ k'.sub = sub ∧ k'.cause = cause ∧ k'.causePkg = pkg)
        ∧ t.log = (s.logEv { code := code, unit := 0xF1, sub := sub, cause := cause, pkg := pkg, acceptNo := a }).log ∧ t.beat = s.beat)

/-! ## Exchange messages (R122 to R129) -/

/-- Arrivals (R122, R123, R126, R128). An arrival of the core's command that its OPEN window takes is written and
acknowledged: in counter mode the window's token goes up by 1; in credit mode its credit counts the bytes and, when all have
arrived, is gone and its token goes up by 1. An arrival of another identity or epoch is discarded as stale, and one that no
window takes is a violation with 0x19, 0x18 or 0x17, each counted and answered. This command completes: PUT_MSG. -/
def Obligations.PutArrives : Prop :=
  ∀ (s : State) (v : Via) (p : PutArrival), p.bad = false → s.admitsCore v 0x10 p.dstCore = true →
    (∀ m, s.rxFind v 0x10 = some m → p = putOfBytes m ∧ putBytesBad m = false) →
    let n := p.dstCore
    let c := s.core n
    let w := vget c.wins p.win
    let u := s.takeRx v 0x10
    let len := p.data.length
    let answered := fun (t : State) (r : PutResult) =>
      t.sendFabric { body := .putAck r, dst := v.src, dunit := v.unit, sunit := n, tag := v.tag }
    let wrote := fun (c : CoreSt) => { c with
      skillet := c.skillet.writeN (w.base + p.offset) p.data
      xchCnt := vmod (vmod c.xchCnt 0 fun x => satAdd 64 x 1) 1 fun x => satAdd 64 x len }
    let mine := c.identity = p.identity ∧ p.epoch = (if w.isOpen then w.epoch else c.epoch)
    (c.st = .idle ∨ c.st = .aborting ∨ ¬ mine → exec (.putMsg v p) s =
      .next (answered (u.modCore n fun c => { c with xchCnt := vmod c.xchCnt 2 fun x => satAdd 64 x 1 }) .stale))
    ∧ (c.st ≠ .idle → c.st ≠ .aborting → mine → ∀ code,
        (code = 0x19 ∧ w.isOpen = false ∨ code = 0x18 ∧ w.isOpen = true ∧ (w.mode ≠ p.mode ∨ w.length < p.offset + len)
          ∨ code = 0x17 ∧ w.isOpen = true ∧ w.mode = false ∧ p.mode = false ∧ p.offset + len ≤ w.length ∧ c.ownCredits = []) →
        exec (.putMsg v p) s = .next (answered ((u.modCore n fun c => { c with xchCnt := vmod c.xchCnt 3 fun x => satAdd 64 x 1 }).logEv
          { coreEv n 5 code with pkg := v.src, extra := p.win + 16 * p.offset + 2 ^ 27 * v.unit }) (.violation code)))
    ∧ (c.quiet = true → mine → w.isOpen = true → w.mode = true → p.mode = true → p.offset + len ≤ w.length → vget c.t w.tk < 65535 →
      exec (.putMsg v p) s = .next (answered (u.modCore n fun c => (wrote c).setTok w.tk (vget c.t w.tk + 1)) .written))
    ∧ (c.quiet = true → mine → w.isOpen = true → w.mode = false → p.mode = false → p.offset + len ≤ w.length →
      ∀ x, c.ownCredits = [x] → x.win = p.win → x.pkg = v.src → x.core = v.unit → x.offset ≤ p.offset →
        p.offset + len ≤ x.offset + x.length →
        (x.written + len < x.length → exec (.putMsg v p) s = .next (answered (u.modCore n fun c =>
          { wrote c with ownCredits := [{ x with written := x.written + len }] }) .written))
        ∧ (x.written + len = x.length → vget c.t x.tk < 65535 → exec (.putMsg v p) s = .next (answered (u.modCore n fun c =>
          { (wrote c).setTok x.tk (vget c.t x.tk + 1) with ownCredits := [] }) .written)))

/-- The answers of the Exchange (R79, R123, R127, R129). The last PUT_ACK completes a PUT, which signals; a stale answer is
counted, and a violation is the sender's fault. A credit that reaches its sender is held while it has fewer than 32, refused
as FULL otherwise, and dropped for another identity or epoch. The owner's GRANT completes when its credit is accepted or
dropped, and a FULL credit is sent again. These commands complete: PUT_ACK, GRANT_MSG, GRANT_ACK, GRANT_RESEND. The model's
choices: What becomes of a FULL answer for a cancelled credit is assumption 39. -/
def Obligations.ExchangeAnswers : Prop :=
  ∀ (s : State) (v : Via) (n : Nat), s.noCore n = false →
    (s.die (coreDie n)).st ≠ .brownHold →
    let c := s.core n
    let ended := fun (f : Flight) (k : Nat) (c : CoreSt) => { c.completed 5 f with
      xchCnt := if k < 16 then vmod c.xchCnt k fun x => satAdd 64 x 1 else c.xchCnt }
    (∀ x f, s.admits v 0x30 = true → c.puts = [x] → x.tag = v.tag → c.awaits 5 v.tag f = true →
      let u := s.takeRx v 0x30
      (∀ row ∈ ([(.written, 16), (.stale, 8)] : List (PutResult × Nat)), exec (.putAck v n row.1) s =
        .next (u.modCore n fun c => { ended f row.2 c with puts := [] }))
      ∧ ∀ code ∈ [0x17, 0x18, 0x19], ∃ t, exec (.putAck v n (.violation code)) s = .next t
        ∧ exec (.faultRaise n 5 code x.pc (.skillet x.src) 0) (u.modCore n fun c => { c with puts := [] }) = .next t)
    ∧ (∀ g : GrantBody, s.admits v 0x11 = true → g.dstCore = n →
      let u := s.takeRx v 0x11
      let answered := fun (t : State) (r : GrantResult) =>
        t.sendFabric { body := .grantAck r, dst := v.src, dunit := v.unit, sunit := n, tag := v.tag }
      (c.st = .idle ∨ c.st = .aborting ∨ c.identity ≠ g.identity ∨ c.epoch ≠ g.epoch →
        exec (.grantMsg v g) s = .next (answered u .dropped))
      ∧ (c.quiet = true → c.identity = g.identity → c.epoch = g.epoch → 32 ≤ c.credits.length →
        exec (.grantMsg v g) s = .next (answered u .full))
      ∧ (c.quiet = true → c.identity = g.identity → c.epoch = g.epoch → c.credits.length < 32 →
        exec (.grantMsg v g) s = .next (answered (u.modCore n fun c => { c with credits := c.credits ++
          [{ pkg := v.src, core := v.unit, win := g.win, offset := g.offset, length := g.length }] }) .accepted)))
    ∧ (∀ x f, s.admits v 0x31 = true → c.ownCredits = [x] → x.tag = v.tag → c.awaits 5 v.tag f = true →
      let u := s.takeRx v 0x31
      exec (.grantAck v n .accepted) s = .next (u.modCore n fun c =>
        { ended f 4 c with ownCredits := [{ x with accepted := true, full := false }] })
      ∧ exec (.grantAck v n .dropped) s = .next (u.modCore n fun c => { ended f 5 c with ownCredits := [] })
      ∧ exec (.grantAck v n .full) s = .next (u.modCore n fun c => { c with ownCredits := [{ x with full := true }] }))
    ∧ (∀ x, c.ownCredits = [x] → x.full = true → x.lastEdge < s.beat.edge → exec (.grantResend n x.tag) s =
      .next ((s.modCore n fun c => { c with ownCredits := [{ x with lastEdge := s.beat.edge, tries := 1 }] }).sendFabric
        { body := .grant { srcPkg := s.cfg.pkgId, srcCore := n, dstCore := x.core, tag := x.tag, identity := c.identity,
                           epoch := c.epoch, win := x.win, winEpoch := (vget c.wins x.win).epoch, offset := x.offset, length := x.length },
          dst := x.pkg, dunit := x.core, sunit := n, tag := x.tag }))

/-! ## Streams and the host port (R201 to R221, R278, R279) -/

/-- Granules end (R201 to R203, R208, R211, R221). One that lands is written to the Skillet, its tag is free, and one fewer
of its descriptor is outstanding; a stale one is dropped and counted. One that is stored changes its object's staged version
and nothing else of it. A watched descriptor ends with the last acknowledged close, and the Whisk writes its oldest tile. The
last granule of the last descriptor completes the XFER, which signals. These commands complete: GRANULE_LANDED,
STORE_ACCEPTED, WATCH_CLOSE_ACK, WHISK_TILE_WRITTEN. The model's choices: The outcome of the access is an operand (assumption
6). -/
def Obligations.GranulesEnd : Prop :=
  ∀ (s : State) (n tag : Nat) (x : XferSt) (d : DescSt) (g : Granule), (s.core n).onlyXfer x d = true →
    x.prog = false → x.won = false →
    let c := s.core n
    let freed := vmod c.sm.tags tag fun t => { t with g := none, cancelled := false }
    let bytes := sumL (g.pieces.map (·.len))
    let others := fun (t : State) => (∀ m < 192, m ≠ n → t.core m = s.core m) ∧ t.tongs = s.tongs ∧ t.log = s.log ∧ t.beat = s.beat
    (s.granMeets n tag x d g = true → g.kind = .fetch → d.d.watch = false →
      (1 < d.outstanding → ∃ t, exec (.granuleLanded n tag (.ok 0)) s = .next t ∧ others t ∧ t.cmd = s.cmd
        ∧ t.core n = { c with
          skillet := writePieces g.data g.pieces c.skillet
          progress := true
          sm := { c.sm with
            tags := freed
            xfers := [{ x with descs := [{ d with outstanding := d.outstanding - 1 }] }]
            ldlCnt := vmod (vmod c.sm.ldlCnt 2 fun a => satAdd 64 a 1) 4 fun a => satAdd 64 a bytes } })
      ∧ (d.outstanding = 1 → ∃ t, exec (.granuleLanded n tag (.ok 0)) s = .next t ∧ others t ∧ t.cmd = s.cmd
        ∧ t.core n = ({ c with
          skillet := writePieces g.data g.pieces c.skillet
          sm := { c.sm with tags := freed } } : CoreSt).xferEnds x [(2, 1), (4, bytes), (1, 1), (0, 1)]))
    ∧ (∀ e, n < 192 → tag < 64 → (vget c.sm.tags tag).g = some (e, g) → e ≠ (vget c.sm.tags tag).epoch → g.kind = .fetch → g.stale = false →
      g.hostTags = [] → g.recon = none → c.sm.whiskQ = [] →
      exec (.granuleLanded n tag (.ok 0)) s = .next (s.modCore n fun c => if (vget c.sm.tags tag).cancelled then
          { c with sm := { c.sm with tags := freed }, seqCnt := vmod c.seqCnt 4 fun a => satAdd 64 a 1 }
        else { c with sm := { c.sm with tags := freed, ldlCnt := vmod c.sm.ldlCnt 13 fun a => satAdd 64 a 1 } }))
    ∧ (∀ a k u v o bs, s.granMeets n tag x d g = true → g.kind = .store → d.d.watch = false → d.outstanding = 1 → c.cmd = some a →
      s.getCmd a = some k → k.use g.handle = some u → u.staged = some v → v.press = false → g.home.press = false → v.tier ≠ 2 → g.data = [(o, bs)] →
      (∀ m < 192, m ≠ n → (s.core m).cmd ≠ some a) → (∀ i < 64, i ≠ tag → (vget c.sm.tags i).g = none) →
      ∃ t, exec (.storeAccepted n tag (.ok 0)) s = .next t ∧ others t
        ∧ t.core n = ({ c with sm := { c.sm with tags := freed } } : CoreSt).xferEnds x [(3, 1), (5, bytes), (1, 1), (0, 1)]
        ∧ let put := fun (u : ObjUse) => { u with staged := some { v with content := v.content.writeN o bs } }
          t.getCmd a = some { k with objs := modFirst (fun u => u.handle == g.handle) put k.objs })
    ∧ (n < 192 → d.d.watch = true → d.closing = true → d.outstanding = 0 →
      (1 < d.closes → exec (.watchCloseAck n x.id d.idx) s = .next (s.modCore n fun c =>
        { c with sm := { c.sm with xfers := [{ x with descs := [{ d with closes := d.closes - 1 }] }] } }))
      ∧ (d.closes = 1 → exec (.watchCloseAck n x.id d.idx) s = .next (s.modCore n fun c => c.xferEnds x [(1, 1), (0, 1)])))
    ∧ (n < 192 → tag < 64 → c.sm.whiskQ = [tag] → vget c.sm.tags tag = { epoch := (vget c.sm.tags tag).epoch, g := some ((vget c.sm.tags tag).epoch, g) } →
      g.xfer = x.id → g.desc = d.idx → g.kind = .whisk → d.d.watch = false → d.outstanding = 1 →
      exec (.whiskTileWritten n) s = .next (s.modCore n fun c => ({ c with
        skillet := writePieces g.data g.pieces c.skillet
        sm := { c.sm with tags := freed, whiskQ := [] } } : CoreSt).xferEnds x [(2, 1), (4, bytes), (9, 1), (1, 1), (0, 1)]))

/-- The host's answers (R72, R208, R278, R279). The bytes of a page join those that a granule has; with the last request
answered they are written to their places in the Skillet, and the granule's tag is free: so a fetch lands, and so does a read
of a program. An ACCEPTED leaves a store granule with one request fewer. A request that is not mapped, or not answered for
65,536 beats, is counted, the latter logged with 0x67 and 0x5C, and its core faults 0x1C. An answer to a request that is not
outstanding changes nothing. These commands complete: HOST_READ_REPLY, HOST_WRITE_REPLY, HOST_TIMEOUT. -/
def Obligations.HostAnswers : Prop :=
  ∀ (s : State) (v : Via) (r : HostReq), s.hostReqs.find? (fun x => x.tag == r.tag) = some r →
    let left := s.hostReqs.filter fun x => x.tag != r.tag
    (v.tag = r.tag →
      (∀ n tag g (data : List Byte), s.admits v 0x3A = true → n < 192 → tag < 64 → r.write = false → r.owner = .granule n tag →
        (vget (s.core n).sm.tags tag).g = some ((vget (s.core n).sm.tags tag).epoch, g) → g.hostTags.contains r.tag = true →
        g.kind = .fetch ∨ g.kind = .load → g.home.press = false → data.length = r.len →
        let runs := joinRuns (g.data ++ [(r.off, data)])
        (1 < g.hostTags.length → exec (.hostReadReply v (some data)) s = .next { ((s.takeRx v 0x3A).modCore n fun c =>
          { c with sm := { c.sm with tags := vmod c.sm.tags tag fun x => { x with g := some (x.epoch, { g with
            hostTags := g.hostTags.filter fun y => y != r.tag, data := runs }) } } }) with hostReqs := left })
        ∧ (∀ x d, (s.core n).onlyXfer x d = true → g.hostTags = [r.tag] → (vget (s.core n).sm.tags tag).col = false →
          g.xfer = x.id → g.desc = d.idx → d.d.watch = false → 1 < d.outstanding →
          exec (.hostReadReply v (some data)) s = .next { ((s.takeRx v 0x3A).modCore n fun c => { c with
            skillet := writePieces runs g.pieces c.skillet
            progress := true
            sm := { c.sm with
              tags := vmod c.sm.tags tag fun t => { t with g := none, cancelled := false }
              xfers := [{ x with descs := [{ d with outstanding := d.outstanding - 1 }] }]
              ldlCnt := bumpBy (bump c.sm.ldlCnt 2) 4 (sumL (g.pieces.map (·.len))) } }) with hostReqs := left }))
      ∧ (∀ n tag g o, s.admits v 0x3B = true → n < 192 → tag < 64 → r.write = true → r.owner = .granule n tag →
        (vget (s.core n).sm.tags tag).g = some g →
        g.2.hostTags.contains r.tag = true → 1 < g.2.hostTags.length → g.2.kind = .store →
        exec (.hostWriteReply v true o) s = .next { ((s.takeRx v 0x3B).modCore n fun c => { c with sm := { c.sm with
          tags := vmod c.sm.tags tag fun x => { x with g := some (g.1, { g.2 with
            hostTags := g.2.hostTags.filter fun y => y != r.tag }) } } }) with hostReqs := left }))
    ∧ (∀ n tag g a k, n < 192 → tag < 64 → r.owner = .granule n tag → (vget (s.core n).sm.tags tag).g =
        some ((vget (s.core n).sm.tags tag).epoch, g) → g.hostTags.contains r.tag = true → g.kind = .load →
        (s.core n).sm.xfers.all (fun x => x.e.race.isNone) = true → (s.core n).busy = true → (s.core n).cmd = some a →
        s.getCmd a = some k → k.group = none → k.stage ≠ .aborting →
      let failed := fun (t : State) (i : Nat) => t.hostReqs = left ∧ (t.core n).st = .aborting ∧ (t.core n).faultCode = 0x1C
        ∧ (vget (t.core n).sm.tags tag).g = none ∧ vget t.tongs.cnt i = satAdd 64 (vget s.tongs.cnt i) 1
      (s.admits v 0x3A = true → v.tag = r.tag → r.write = false → ∃ t, exec (.hostReadReply v none) s = .next t ∧ failed t 22)
      ∧ (r.sentEdge + 65536 ≤ s.beat.edge → ∃ t, exec (.hostTimeout r.tag) s = .next t ∧ failed t 23
        ∧ (∀ code ∈ [0x67, 0x5C], vget t.log.codeCnt code = satAdd 64 (vget s.log.codeCnt code) 1)))
    ∧ ((∀ x ∈ s.hostReqs, x.tag ≠ v.tag) →
      (∀ data, s.admits v 0x3A = true → exec (.hostReadReply v data) s = .next (s.takeRx v 0x3A))
      ∧ ∀ ok o, s.admits v 0x3B = true → exec (.hostWriteReply v ok o) s = .next (s.takeRx v 0x3B))

/-! ## Messages on the way (R329, R332 to R334, R338, R505) -/

/-- A message for another package is passed on over the port that R332 names, with DIR and DLC of its header rewritten and
every other byte as it came; where no port serves it, its source is answered with the ERROR of R334, and a destination
outside the torus is logged with 0x6A and answered, when the message is a request (R505). A PUT that failed parity is sent
once more, and its core faults 0x68 the second time (R329); an ERROR is the core's fault, and so is 0x67 for a PUT with no
response in 65,536 beats (R334, R338). These commands complete: MESSAGE_FORWARD, PARITY_NAK, ERROR, RESPONSE_TIMEOUT. The
model's choices: The fields of record 0x6A are assumption 17, and the counting of resends is assumption 16. -/
def Obligations.MessagesOnTheWay : Prop :=
  (∀ (s : State) (port : Nat) (m : List Byte), port < 16 → 16 ≤ m.length → bitOf (leAt m 0 8) 58 = false → rxDst m ≠ s.cfg.pkgId → rxBad false m = false →
    let v : Via := { port := port, src := rxSrc m, unit := rxSunit m, tag := rxTag m }
    let ty := rxType m
    (s.port port).st ≠ .mismatch ∨ ty = 0x3E →
    let u := s.takeRx v ty
    let hop := s.nextHop (rxDst m) (mtypeClass ty) (ty == 0x3E) (some (port / 4, bitOf (leAt m 0 8) 59, bitOf (leAt m 0 8) 60))
    (∀ p k minus dlc, hop = .to p k minus dlc →
      let b := (m.getD 7 0).toNat
      exec (.messageForward port m) s = .next (u.transmit p
        { body := .raw (m.set 7 (toB (b / 32 * 32 + 16 * b2n dlc + 8 * b2n minus + b % 8))), dst := rxDst m, src := v.src,
          dunit := bitsOf (leAt m 0 16) 91 84, sunit := v.unit, tag := v.tag, dlc := dlc, dir := minus, dim := k }))
    ∧ (∀ code k minus, hop = .fail code k minus → exec (.messageForward port m) s =
      .next ((u.fjlCnt (fabricPort k minus 0) 14 1).answerError v code ty))
    ∧ (hop = .invalid →
      let l := u.logEv { code := 0x6A, unit := 0xF4, inst := port, pkg := rxDst m }
      exec (.messageForward port m) s = .next (if mtypeClass ty = 1 then l.answerError v 0x6A ty else l)))
  ∧ (∀ (s : State) (v : Via) (n : Nat) (x : SentPut), n < 192 → (s.core n).puts = [x] → x.tag = v.tag →
    let fault := fun (t : State) (code : Nat) => exec (.faultRaise n 5 code x.pc (.skillet x.src) 0) t
    (s.admitsCore v 0x3D n = true →
      (x.tries < 2 → exec (.parityNak v n 0x10) s = .next (((s.takeRx v 0x3D).modCore n fun c =>
        { c with puts := [{ x with tries := 2, sentEdge := s.beat.edge }] }).sendArrival n x))
      ∧ (2 ≤ x.tries → ∃ t, exec (.parityNak v n 0x10) s = .next t ∧ fault (s.takeRx v 0x3D) 0x68 = .next t))
    ∧ (s.admitsCore v 0x3E n = true → ∀ code, code ≠ 0x20 → code ≠ 0x24 → ∃ t, exec (.errorMsg v n code 0x10) s = .next t
      ∧ fault (s.takeRx v 0x3E) code = .next t)
    ∧ (s.beat.lock ≠ .unlocked → ∃ t, exec (.responseTimeout n x.tag) s = .next t
      ∧ fault (s.advance (x.sentEdge + 65536 - s.beat.edge)) 0x67 = .next t))

/-! ## Objects (R245 to R284, R504) -/

/-- Object requests (R252 to R256, R263, R270, R279): what each does to the home table when it is accepted, starts and is
refused by nothing. CREATE takes a FREE entry, charges its extents and, when nothing has to be filled, completes with the
handle; FREE empties the entry and gives its extents to a release; MOVE and EVICT take the lock and their targets; SETFLAGS,
GRANT and REVOKE change the entry; QUERY and MAP answer with it; POOL_ADD extends the pool. A completed request is answered
with a REPLY. These commands complete: CREATE, FREE, MOVE, EVICT, SETFLAGS, OBJ_GRANT, REVOKE, QUERY, MAP, POOL_ADD. The
model's choices: Which entry and extents are taken is a free choice (assumption 9). -/
def Obligations.ObjectRequests : Prop :=
  ∀ (s : State) (v : Via) (m : List Byte),
    let h := msgHdr m
    let r := objReq (m.drop (64 + 8 * leAt m 6 2))
    let n := ceilDiv r.arg extentBytes
    let a := s.cmd.nextAccept
    let accepted := fun (t : State) => ∃ items, t.outbox = s.outbox ++ s.replyItem v.tag { kind := 1, req := h.req, acceptNo := a } :: items
    let done := fun (t : State) (result : Nat) (data : List Byte) => t.outbox.getLast? =
      some (s.replyItem v.tag { kind := 3, attempts := 1, req := h.req, acceptNo := a, result := result, data := data })
    (∀ tier ∈ [0, 2], s.takesObject v m 1 = true → r.tier = tier → r.press = false → s.tongs.objs.length < 1048575 →
      s.affords h.client tier false (tier == 2) n = true → h.client < 64 → ∃ t o, exec (.create v m) s = .next t
        ∧ t.tongs.objs = s.tongs.objs ++ [o] ∧ 1 ≤ o.idx ∧ (∀ x ∈ s.tongs.objs, x.idx ≠ o.idx)
        ∧ o.owner = h.client ∧ o.part = h.part ∧ o.size = r.arg ∧ o.pin = bitOf r.flags 3 ∧ o.secure = bitOf r.flags 4
        ∧ o.evictable = bitOf r.flags 5 ∧ o.phase = .none ∧ o.cur.tier = tier ∧ o.cur.wheres.length = n
        ∧ (t.quota h.client tier).used = (s.quota h.client tier).used + n
        ∧ (tier = 0 → o.st = .creating ∧ accepted t) ∧ (tier = 2 → o.st = .resident ∧ done t o.handle []))
    ∧ (s.takesObject v m 10 = true → s.tongs.waits = [] → ∃ t, exec (.poolAdd v m) s = .next t
        ∧ t.tongs.pool = s.tongs.pool ++ (List.range r.arg).map (fun i => r.hostAddr / extentBytes + i)
        ∧ done t (s.tongs.pool.length + r.arg) [] ∧ t.tongs.objs = s.tongs.objs)
    ∧ ∀ o, s.tongs.byHandle r.handle = some o → s.tongs.byIdx o.idx = some o →
      let starts := fun (t : State) (kind : MoveKind) (tier : Nat) (press : Bool) =>
        t.tongs.byIdx o.idx = some { o with phase := .copy, target := tier } ∧ accepted t
        ∧ ∃ x : Move, t.tongs.moves = s.tongs.moves ++ [x] ∧ x.idx = o.idx ∧ x.kind = kind ∧ x.acceptNo = a ∧ x.tgt.tier = tier
          ∧ x.tgt.press = press ∧ x.tgt.wheres.length = o.extents ∧ x.waiting = decide (16 ≤ s.tongs.copying) ∧ x.begun = !x.waiting
      let alone := ∀ y ∈ s.tongs.moves, y.idx ≠ o.idx ∧ (y.waiting || y.begun) = true
      (s.takesObject v m 2 = true → o.grants = 0 → o.stagedBy = [] → o.phase = .none → ∃ t, exec (.freeObj v m) s = .next t
        ∧ t.tongs.objs = s.tongs.objs.filter (fun x => x.idx != o.idx) ∧ done t 0 []
        ∧ ∃ x : Release, t.tongs.releases = s.tongs.releases ++ [x] ∧ x.client = o.owner ∧ x.tier = o.cur.tier
          ∧ x.wheres = o.cur.wheres ∧ x.units = o.cur.charge)
      ∧ (s.takesObject v m 3 = true → o.phase = .none → alone → r.tier ≠ o.cur.tier →
        s.affords o.owner r.tier r.press (r.tier == 2 && !r.press) o.extents = true →
        ∃ t, exec (.moveObj v m) s = .next t ∧ starts t .move r.tier r.press)
      ∧ (s.takesObject v m 4 = true → o.phase = .none → alone → o.pin = false → s.affords o.owner r.tier true false o.extents = true →
        ∃ t, exec (.evict v m) s = .next t ∧ starts t .evict r.tier true)
      ∧ (s.takesObject v m 5 = true → ∃ t, exec (.setflags v m) s = .next t ∧ done t 0 []
        ∧ t.tongs.byIdx o.idx = some { o with pin := bitOf r.flags 3, secure := bitOf r.flags 4, evictable := bitOf r.flags 5 })
      ∧ (∀ row ∈ ([(6, .objGrant, fun p => p != o.part && p == r.part || bitOf o.grants p), (7, .revoke, fun p => p != r.part && bitOf o.grants p)] :
          List (Nat × (Via → List Byte → Instr) × (Nat → Bool))),
        s.takesObject v m row.1 = true → ∃ t g, exec (row.2.1 v m) s = .next t ∧ t.tongs.byIdx o.idx = some { o with grants := g }
          ∧ (∀ p, bitOf g p = row.2.2 p) ∧ t.tongs.invals = s.tongs.invals ++ [a] ∧ accepted t
          ∧ ∀ q < 16, ∀ e ∈ (t.region q).cache, e.1 ≠ o.idx)
      ∧ (s.takesObject v m 8 = true → ∃ t, exec (.query v m) s = .next t ∧ done t 0 o.entry ∧ t.tongs.objs = s.tongs.objs)
      ∧ (s.takesObject v m 9 = true → ∃ t, exec (.mapObj v m) s = .next t ∧ t.tongs.objs = s.tongs.objs
        ∧ done t 0 ((List.range (min 480 (o.extents - r.arg))).flatMap fun i => leBytes 8 (o.locator (r.arg + i))))

/-- Events of the Tongs (R255, R258 to R260, R266, R270). The fill of a CREATE makes its entry RESIDENT; the copy of a move
makes its target the current version, with the lock in FLIP and the old extents in a release; the last acknowledgement frees
the lock and completes the request; a release that nothing reads gives its extents and its charge back; an allocation that
waited EVICT_WAIT gives the lock back and fails its request with its code. These commands complete: CREATE_FILL_COMPLETE,
MOVE_COPY_DONE, FLIP_COMPLETE, EXTENT_RELEASE, GRANT_INVAL_COMPLETE, ALLOCATION_TIMEOUT. The model's choices: The traffic of
a copy is assumption 18. -/
def Obligations.ObjectEvents : Prop :=
  ∀ (s : State) (c : Cmd) (o : Obj), s.tongs.byIdx o.idx = some o →
    let done := fun (t : State) (result : Nat) =>
      t.outbox.getLast? = some (s.replyItem c.tag (c.finalReply 3 0 0 0 0 false result [])) ∧ t.getCmd c.acceptNo = none
    (s.calm = true →
      (s.objectOpen c 1 = true → s.createdBy c = some o → o.cur.wheres ≠ [] → s.copyAccess o.cur = 0 → ∃ t, exec (.createFillComplete c.acceptNo) s = .next t
        ∧ t.tongs.byIdx o.idx = some { o with st := .resident, version := 0, lastUse := s.now } ∧ done t o.handle)
      ∧ (∀ m, s.tongs.moves.find? (fun m => m.idx == o.idx) = some m → m.waiting = false → m.recon = none → o.phase = .copy →
        s.hostIdle (.move o.idx) = true → s.copyAccess o.cur = 0 → s.copyAccess m.tgt = 0 →
        ∃ t o', exec (.moveCopyDone o.idx [] (.ok 0)) s = .next t ∧ t.tongs.byIdx o.idx = some o' ∧ o'.phase = .flip ∧ o'.handle = o.handle
          ∧ o'.size = o.size ∧ o'.cur = { m.tgt with charge := m.tgt.chargeOf }
          ∧ t.tongs.flips = s.tongs.flips ++ [{ idx := m.idx, kind := m.kind, acceptNo := m.acceptNo, old := o.cur, lastUse := o.lastUse
                                                rel := s.tongs.nextRelease }]
          ∧ (∀ x ∈ t.tongs.moves, x.idx ≠ o.idx) ∧ (∃ r ∈ t.tongs.releases, r.id = s.tongs.nextRelease ∧ r.wheres = o.cur.wheres
            ∧ r.client = o.owner))
      ∧ (∀ f, s.tongs.flips.find? (fun x => x.idx == o.idx) = some f → o.evictQ = none →
        (f.kind = .auto ∨ f.kind = .retire → ∃ t, exec (.flipComplete o.idx) s = .next t
          ∧ t.tongs.byIdx o.idx = some { o with phase := .none } ∧ t.tongs.flips = s.tongs.flips.filter (fun x => x.idx != o.idx) ∧ t.outbox = s.outbox)
        ∧ (∀ row ∈ ([(3, .move), (4, .evict)] : List (Nat × MoveKind)), s.objectOpen c row.1 = true → f.kind = row.2 → f.acceptNo = c.acceptNo →
          ∃ t, exec (.flipComplete o.idx) s = .next t ∧ t.tongs.byIdx o.idx = some { o with phase := .none } ∧ done t o.cur.tier))
      ∧ (∀ r, s.tongs.releases.find? (fun x => x.id == r.id) = some r → s.releaseBusy r = false → r.client < 64 → r.tier < 3 →
        ∃ t, exec (.extentRelease r.id) s = .next t ∧ t.tongs.releases = s.tongs.releases.filter (fun x => x.id != r.id)
          ∧ (t.quota r.client r.tier).used = (s.quota r.client r.tier).used - r.units
          ∧ (r.press = false → r.tier = 0 → ∀ q < 16, (t.region q).used = (s.region q).used.filter fun e => !r.wheres.contains (8192 * q + e))
          ∧ (r.press = false → r.tier = 1 → t.tongs.farUsed = s.tongs.farUsed.filter fun w => !r.wheres.contains w))
      ∧ (∀ op ∈ [6, 7], s.objectOpen c op = true → s.tongs.invals.contains c.acceptNo = true →
        ∃ t, exec (.grantInvalComplete c.acceptNo) s = .next t ∧ t.tongs.invals = s.tongs.invals.filter (fun b => b != c.acceptNo)
          ∧ t.tongs.objs = s.tongs.objs ∧ done t 0))
    ∧ (∀ w, s.tongs.waits = [w] → w.acceptNo = c.acceptNo → w.auto = none → w.until_ ≤ s.beat.edge → s.objectOpen c 3 = true →
      (∀ x ∈ s.cmd.cmds, x.stage ≠ .queued) → (∀ x ∈ s.tongs.objs, x.evictQ = none) → s.tongs.byHandle c.objReq.handle = some o →
      let r := c.objReq
      let short := s.short { client := o.owner, tier := r.tier, press := r.press, named := r.tier == 2 && !r.press, n := o.extents }
      let code := if 0 < short.1 then 0x51 else 0x52
      s.tierRefusal r.tier r.press o.extents = none → short ≠ (0, 0) → ∃ t, exec (.allocationTimeout c.acceptNo none) s = .next t
        ∧ t.tongs.waits = [] ∧ t.tongs.byIdx o.idx = some { o with phase := .none, target := r.tier }
        ∧ vget t.tongs.cnt 12 = satAdd 64 (vget s.tongs.cnt 12) 1 ∧ vget t.log.codeCnt code = satAdd 64 (vget s.log.codeCnt code) 1
        ∧ t.outbox.getLast? = some (s.replyItem c.tag (c.finalReply 4 code 0 0 s.pkgIdField false 0 [])) ∧ t.getCmd c.acceptNo = none)

/-! ## Integrity (R285 to R309) -/

/-- Die-to-die links, rows and banks (R24, R27, R290 to R296, R298, R302). A retransmission is counted, and the eighth within
2^20 beats puts the half under test; with the other half dropped or under test too, the C-die of a CH link is UNREACHABLE. A
segment is rebuilt as the XOR of the other 32, is held in its entry and logged with 0x21; a copied row takes a spare row and
goes to its test; a copied bank takes a spare bank, and its rows that were due are tested; the patrol moves on by one row,
and a word that fails twice claims an entry or waits for one; corrections of far memory are counted; an emptied slice is
RETIRED. These commands complete: D2D_RETRANSMIT, ROW_RECONSTRUCTED, ROW_SPARE_COPY_DONE, BANK_SPARE_COPY_DONE, PATROL_READ,
ECC_REPORT_POLL, SLICE_RETIRED. The model's choices: when spare rows and entries are counted is assumption 46, which physical
rows and banks are named is assumption 58. -/
def Obligations.RowsAndLinks : Prop :=
  ∀ (s : State) (r bank row seg : Nat), r < 16 → (∀ n < 192, ∀ i < 64, (vget (s.core n).sm.tags i).g.all (fun p => p.2.recon.isNone) = true) →
    s.copyWaits = [] → s.tongs.waits = [] → (s.region r).patrolWait = [] →
    let g := s.region r
    let up := fun (c : Vector Nat 16) (k n : Nat) => vset c k (satAdd 64 (vget c k) n)
    let kept := fun (t : State) => t.cores = s.cores ∧ t.tongs = s.tongs ∧ t.cmd = s.cmd ∧ t.beat = s.beat ∧ ∀ q < 16, q ≠ r → t.region q = s.region q
    (∀ l h, l < 8 → h < 2 → (s.link l).carries h = true →
      let seen := ((vget (s.link l).recent h).filter fun e => s.beat.edge < e + 2 ^ 20) ++ [s.beat.edge]
      (seen.length < 8 → exec (.d2dRetransmit l h) s = .next ((s.icnt l 1).modLink l fun x => { x with recent := vset x.recent h seen }))
      ∧ (8 ≤ seen.length → s.integ.tests = [] →
        ((s.link l).carries (1 - h) = true → ∃ t, exec (.d2dRetransmit l h) s = .next t ∧ vget (t.link l).testing h = true
          ∧ (t.link l).carries h = false ∧ (∃ x, t.integ.tests = [x] ∧ x.loc = .d2dHalf l h) ∧ kept t)
        ∧ (l < 4 → vget (s.link l).dropped (1 - h) = true → (s.die l).st ≠ .unreachable → s.cmd.cmds = [] → s.tongs.moves = [] →
          (∀ n < 192, (s.core n).heldAt l = []) → ∃ t, exec (.d2dRetransmit l h) s = .next t
          ∧ (t.die l).st = .unreachable)))
    ∧ (∀ e held, s.rebuildOf (r, bank, row, seg) = some e → e.done = false → g.spareLeft bank ≠ 0 → ∃ t,
      exec (.rowReconstructed r bank row seg (.rebuilt held)) s = .next t
        ∧ t.rebuildOf (r, bank, row, seg) = some { e with
            done := true
            bytes := s.xorSegment (r, bank, row, seg) }
        ∧ vget (t.region r).cnt 2 = satAdd 64 (vget g.cnt 2) 1 ∧ vget (t.region r).cnt 3 = satAdd 64 (vget g.cnt 3) (384 + min 192 held)
        ∧ vget t.log.codeCnt 0x21 = satAdd 64 (vget s.log.codeCnt 0x21) 1 ∧ kept t)
    ∧ ((g.rebuild.any fun e => e.bank == bank && e.row == row && e.done) = true → s.dieHeld (r / 4) = false → s.integ.tests = [] →
      g.spareLeft bank ≠ 0 → ∃ t, exec (.rowSpareCopyDone r bank row) s = .next t
        ∧ (t.region r).rebuild = g.rebuild.filter (fun e => !(e.bank == bank && e.row == row)) ∧ (t.region r).spareLeft bank = g.spareLeft bank - 1
        ∧ (∀ x, g.rowOf bank row = some x → g.spares bank ≠ [] → ∃ p ∈ g.spares bank,
            (t.region r).rowMap = (g.rowMap.filter fun y => !(y.1 == bank && y.2.1 == x)) ++ [(bank, x, p)])
        ∧ (r, bank, row) ∈ t.integ.flashRows ∧ t.integ.tests = [{ loc := .row r bank row, running := true }] ∧ kept t)
    ∧ (∀ x rest, g.sparing = x :: rest → x.bank ∉ g.bankMap.map (·.2) → ∃ t, exec (.bankSpareCopyDone r []) s = .next t
        ∧ (t.region r).sparing = rest ∧ (t.region r).spareBanks = g.spareBanks.filter (· != x.spare)
        ∧ (t.region r).physBank x.bank = x.spare ∧ (t.region r).rebuild = g.rebuild.filter (fun e => e.bank != x.bank)
        ∧ (∀ e ∈ g.rebuild, e.bank = x.bank → e.done = true → (r, x.bank, e.row) ∈ t.integ.flashRows)
        ∧ (t.region r).cnt = up g.cnt 10 1 ∧ vget t.log.codeCnt 0x28 = satAdd 64 (vget s.log.codeCnt 0x28) 1 ∧ kept t)
    ∧ (g.inReset = false → (s.die (r / 4)).st = .active →
      let at_ := (g.patrol / 12352, g.patrol % 12352)
      let moved := fun (q : Region) => { q with patrol := (q.patrol + 1) % (130 * 12352) }
      (∀ n, ∃ t, exec (.patrolRead r n none) s = .next t ∧ kept t ∧ t.region r = moved { g with cnt := up (up g.cnt 7 1) 0 n })
      ∧ (∀ n, at_ ∉ g.testRows → at_ ∉ g.retiredRows → s.rebuildOf (r, at_.1, at_.2, seg) = none → ∃ t,
        exec (.patrolRead r n (some seg)) s = .next t ∧ kept t
          ∧ t.region r = moved { g with
              cnt := up (up (up (up g.cnt 7 1) 0 n) 0 1) 1 1
              rebuild := if g.rebuild.length < 8 then g.rebuild ++ [{ bank := at_.1, row := at_.2, seg := seg, done := false }] else g.rebuild
              patrolWait := if g.rebuild.length < 8 then [] else [(at_.1, at_.2, seg)] }))
    ∧ (∀ n, exec (.eccReportPoll n) s = .next (s.modInteg fun i => { i with icnt := vmod i.icnt 12 fun x => satAdd 64 x n }))
    ∧ (g.slice = 1 → g.used = [] → exec (.sliceRetired r) s = .next (s.modRegion r fun q => { q with slice := 2 }))

/-- Tests (R300, R301, R304, R306 to R309). A passed test of a row gives it back as a spare row, with 0x25; a failed one
retires it, with 0x26 and 0x27. A deferred test starts once its domain allows it. A slice of periodic BIST starts on a core
that may run one, is skipped once for voltage or clock, clears its core and moves on when its signature matches, and runs a
second time with 0x2D when it does not. These commands complete: TEST_COMPLETE, DEFERRED_TEST_START, LBIST_SLICE_START,
LBIST_SLICE_COMPLETE. The model's choices: The fields of a test's record are assumption 20, and what a core reset leaves is
assumption 47. -/
def Obligations.TestOutcomes : Prop :=
  ∀ (s : State),
    (∀ r bank row errors, r < 16 → s.integ.tests = [{ loc := .row r bank row, running := true }] → s.integ.history = [] → s.tongs.waits = [] →
      let g := s.region r
      ∃ t, exec (.testComplete (.row r bank row) errors) s = .next t ∧ t.integ.tests = [] ∧ (r, bank, row) ∉ t.integ.flashRows
        ∧ (t.region r).testRows = g.testRows.filter (fun x => x != (bank, row)) ∧ t.cores = s.cores ∧ t.tongs = s.tongs ∧ t.cmd = s.cmd
        ∧ (errors = 0 → (t.region r).retiredRows = g.retiredRows ∧ vget (t.region r).cnt 8 = satAdd 64 (vget g.cnt 8) 1
          ∧ vget t.log.codeCnt 0x25 = satAdd 64 (vget s.log.codeCnt 0x25) 1 ∧ t.integ.history = [(.row r bank row, [s.beat.edge])])
        ∧ (errors ≠ 0 → (t.region r).retiredRows = g.retiredRows ++ [(bank, row)] ∧ vget (t.region r).cnt 9 = satAdd 64 (vget g.cnt 9) 1
          ∧ vget t.log.codeCnt 0x26 = satAdd 64 (vget s.log.codeCnt 0x26) 1 ∧ vget t.log.codeCnt 0x27 = satAdd 64 (vget s.log.codeCnt 0x27) 1
          ∧ t.integ.history = []))
    ∧ (∀ l x, s.integ.tests = [x] → x.loc = l → s.testFree l = true → exec (.deferredTestStart l) s =
      .next (s.modInteg fun i => { i with tests := [{ x with running := true, deferred := false }] }))
    ∧ (∀ n, n < 192 → s.bistIdle n = true → s.coreTestDue = false →
      (s.bistPower n = true → s.beat.lock ≠ .unlocked → s.testRoom n = true → s.bistTurn n = true → exec (.lbistSliceStart n true) s =
        .next (s.modInteg fun i => { i with slices := i.slices ++ [(n, alGet i.nextSlice n 0, false)] }))
      ∧ (∀ clock, s.bistPower n = false ∨ clock = false → s.integ.skipped.contains n = false → exec (.lbistSliceStart n clock) s =
        .next ((s.modInteg fun i => { i with skipped := i.skipped ++ [n] }).modRegion (n / 12) fun q =>
          { q with cnt := vmod q.cnt 12 fun x => satAdd 64 x 1 })))
    ∧ (∀ n k, n < 192 → s.integ.slices = [(n, k, false)] →
      (∃ t, exec (.lbistSliceComplete n true) s = .next t ∧ t.integ.slices = [] ∧ alGet t.integ.nextSlice n 0 = (k + 1) % 64
        ∧ alGet t.integ.lastSlice n 0 = s.beat.edge ∧ t.core n = (s.core n).afterReset (s.core n).idleSince
        ∧ (∀ m < 192, m ≠ n → t.core m = s.core m) ∧ vget (t.region (n / 12)).cnt 11 = satAdd 64 (vget (s.region (n / 12)).cnt 11) 1 ∧ t.log = s.log)
      ∧ (∃ t, exec (.lbistSliceComplete n false) s = .next t ∧ t.integ.slices = [(n, k, true)] ∧ t.cores = s.cores
        ∧ vget (t.region (n / 12)).cnt 14 = satAdd 64 (vget (s.region (n / 12)).cnt 14) 1
        ∧ vget t.log.codeCnt 0x2D = satAdd 64 (vget s.log.codeCnt 0x2D) 1))

/-! ## Commands (R351 to R382) -/

/-- Command messages and mirrors (R354 to R361, R377, R378). An accepted RUN or GROUP takes the next acceptance number, is
journaled and answered with ACCEPT; PREEMPT of a queued command sets its earliest start, and of a running one stops it at the
next beat edge; RESUME queues a HELD command; JOB_END of a job with no command frees its context. A partner's record is kept
and acknowledged, an acknowledged one is outstanding no more, and one not acknowledged for 65,536 beats is sent again with
0x67. After a reset the journal is replayed once. These commands complete: RUN, GROUP, PREEMPT, RESUME, JOB_END, MIRROR,
MIRROR_ACK, MIRROR_RETRY, JOURNAL_REPLAY. The model's choices: The replay's operands are assumption 22, and the refusals of
PREEMPT and RESUME are assumption 48. -/
def Obligations.CommandMessages : Prop :=
  ∀ (s : State) (v : Via) (m : List Byte),
    let h := msgHdr m
    let u := s.takeRx v 0x20
    let a := s.cmd.nextAccept
    (∀ row ∈ ([(1, .runCmd), (2, .groupCmd)] : List (Nat × (Via → List Byte → Instr))), leAt m 0 1 = row.1 →
      (s.takes v m = true → s.getCmd a = none → s.now + 256 ≤ (groupOf (msgSched m)).rk 0 ∨ row.1 = 1 → ∃ t, exec (row.2 v m) s = .next t
        ∧ t.getCmd a = some { s.newCmd v.tag a m with stage := .queued } ∧ t.cmd.nextAccept = a + 1
        ∧ (vget t.cmd.clients h.client).nextReq = h.req + 1 ∧ (∃ r, t.cmd.journal = s.cmd.journal ++ [r] ∧ r.acceptNo = a ∧ r.payload = .accept m)
        ∧ t.outbox.getLast? = some (s.replyItem v.tag { kind := 1, req := h.req, acceptNo := a })
        ∧ t.cores = s.cores ∧ t.tongs = s.tongs ∧ t.log = s.log)
      ∧ (s.admits v 0x20 = true → s.power.ready = false → exec (row.2 v m) s = .next (u.reject v.tag h.client h.req 0x75 0))
      ∧ (s.admits v 0x20 = true → s.power.ready = true → 64 ≤ m.length → (vget s.cmd.clients h.client).valid = true →
        (vget s.cmd.clients h.client).part = h.part → s.malformed m = none → (vget s.cmd.clients h.client).nextReq ≤ h.req →
        s.cfg.valid = false → exec (row.2 v m) s = .next (u.reject v.tag h.client h.req 0x74 0)))
    ∧ (∀ c, s.hears v m = true → s.getCmd h.arg = some c → c.acceptNo = h.arg → c.part = h.part →
      (leAt m 0 1 = 4 → c.kind ≠ 3 → c.stage = .queued → exec (.preempt v m) s =
        .next ((u.modCmd h.arg fun c => { c with notBefore := h.arg2 }).reply v.tag { kind := 3, req := h.req }))
      ∧ (leAt m 0 1 = 4 → c.kind ≠ 3 → c.stage = .running → c.group = none → c.kill = none → ∃ t, exec (.preempt v m) s = .next t
        ∧ (let k := { c with notBefore := h.arg2, preempts := c.preempts ++ [(v.tag, h.req)] }
           t.getCmd h.arg = some { k with kill := some (0x42, 1, 0, s.pkgIdField), killEdge := s.beat.edge + 1 })
        ∧ t.cores = s.cores ∧ t.outbox = s.outbox ∧ t.log = s.log)
      ∧ (leAt m 0 1 = 5 → c.stage = .held → c.attempts ≤ c.rerunMax → ∃ t k, exec (.resume v m) s = .next t ∧ t.getCmd h.arg = some k
        ∧ k.stage = .queued ∧ k.notBefore = 0 ∧ k.epoch = (c.epoch + 1) % 65536 ∧ k.attempts = c.attempts
        ∧ t.outbox.getLast? = some (s.replyItem v.tag { kind := 3, req := h.req }) ∧ t.cores = s.cores))
    ∧ (s.hears v m = true → leAt m 0 1 = 6 → s.jobCmds h.part h.job = [] → (∀ x ∈ (s.part h.part).ctxs, x.job = h.job → x.ending = []) →
      exec (.jobEnd v m) s = .next ((u.modPart h.part fun p => { p with ctxs := p.ctxs.filter fun x => x.job != h.job }).reply v.tag
        { kind := 3, req := h.req }))
    ∧ (∀ r : JRec, s.admits v 0x12 = true → (∀ d b, r.payload ≠ .decision d b) →
      let w := s.takeRx v 0x12
      let answered := fun (t : State) (ok : Bool) =>
        t.sendFabric { body := .mirrorAck ok, dst := v.src, dunit := 0xF1, sunit := 0xF1, tag := v.tag }
      (s.unpaired = false → v.src = s.lid.partner → (∀ x ∈ s.cmd.partnerJrnl, x.seq ≠ r.seq) → exec (.mirror v r) s =
        .next (answered (w.modCmdU fun k => { k with partnerJrnl := k.partnerJrnl ++ [r], cnt := vmod k.cnt 10 fun x => satAdd 64 x 1 }) true))
      ∧ (s.unpaired = true ∨ v.src ≠ s.lid.partner → exec (.mirror v r) s = .next (answered w false)))
    ∧ (∀ x, s.admits v 0x32 = true → s.cmd.mirrors = [x] → x.tag = v.tag →
      let w := s.takeRx v 0x32
      (x.why = .plain → exec (.mirrorAck v true) s = .next (w.modCmdU fun k => { k with mirrors := [] }))
      ∧ exec (.mirrorAck v false) s = .next w
      ∧ (∀ c, x.why = .accept c.acceptNo → s.getCmd c.acceptNo = some c → c.kind = 1 → c.group = none → ∃ t, exec (.mirrorAck v true) s = .next t
        ∧ t.cmd.mirrors = [] ∧ t.getCmd c.acceptNo = some { c with stage := .queued }
        ∧ t.outbox.getLast? = some (s.replyItem c.tag { kind := 1, req := c.req, acceptNo := c.acceptNo })))
    ∧ (∀ x, s.cmd.mirrors = [x] → x.sentEdge + 65536 ≤ s.beat.edge → exec (.mirrorRetry x.tag) s =
      .next (((s.logEv { code := 0x67, unit := 0xF1, acceptNo := x.rec_.acceptNo }).sendFabric
        { body := .mirror x.rec_, dst := x.dst, dunit := 0xF1, sunit := 0xF1, tag := x.tag }).modCmdU fun k => { k with
          mirrors := [{ x with sentEdge := s.beat.edge, tries := 1 }]
          cnt := vmod k.cnt 9 fun y => satAdd 64 y 1 }))
    ∧ (s.cmd.replaying = false → ∀ copy keep, exec (.journalReplay copy keep) s = .next s)
    ∧ (s.cmd.replaying = true → s.power.ready = true → s.unpaired = true → s.power.stateKept = true → s.cmd.cmds = [] →
      ∀ r, s.cmd.journal = [r] → r.payload = .accept m → h.kind = 1 → ∀ copy keep, 1 ≤ keep → ∃ t k, exec (.journalReplay copy keep) s = .next t
        ∧ t.cmd.replaying = false ∧ t.getCmd r.acceptNo = some k ∧ k.stage = .queued ∧ k.message = m ∧ k.attempts = 0
        ∧ r.acceptNo < t.cmd.nextAccept ∧ t.cores = s.cores)

/-- The course of a RUN command (R71, R72, R110, R111, R353, R362, R365). COMMAND_START gives the cores of its partition to
the next command; their stores are cleared for another job, and for the same job the read of the program begins at once. A
copied output is staged with the bytes of its object and joins the attempt. The clearing leaves zeros, and the read of the
program begins after it; a read that fails ends the attempt with its code. With the program read, the core runs from address
0 with g1 and g2 set and the parameters in place. The commit makes every output the current version in one write and answers
COMPLETE with the beat. These commands complete: COMMAND_START, CLEARING_COMPLETE, PROGRAM_LOADED, STAGED_COPY_COMPLETE,
LOCAL_COMMIT. -/
def Obligations.CommandCourse : Prop :=
  ∀ (s : State) (c : Cmd), s.getCmd c.acceptNo = some c → c.group = none →
    let h := msgHdr c.message
    let a := c.acceptNo
    let other := fun (n : Nat) => (s.core n).lastJob ≠ some (c.part, c.job)
    (∀ p, p < 16 → c.part = p → s.partFree p = true → s.partCores p ≠ [] → ((s.partCores p).all fun n => !(s.core n).inReset) = true →
      s.nextCmd p = some c →
      (c.objs = [] → (∀ n ∈ s.partCores p, other n) → ∃ t k, exec (.commandStart p) s = .next t ∧ t.getCmd a = some k ∧ k.stage = .running
        ∧ k.attempts = c.attempts + 1 ∧ k.cores = s.partCores p ∧ (t.part p).running = some a ∧ (t.part p).lastJob = some c.job
        ∧ (∀ n ∈ s.partCores p, (t.core n).st = .loading ∧ (t.core n).cmd = some a ∧ (t.core n).epoch = c.epoch ∧ (t.core n).part = p
          ∧ (t.core n).loading = some { acceptNo := a, clearing := true })
        ∧ (∀ n < 192, n ∉ s.partCores p → t.core n = s.core n))
      ∧ (∀ n, c.objs = [] → s.partCores p = [n] → ¬ other n → ∃ w : State, exec (.commandStart p) s = .next (w.startLoad n)
        ∧ (w.core n).st = .loading ∧ (w.core n).cmd = some a ∧ (w.core n).loading = some { acceptNo := a, clearing := false }
        ∧ (∀ m < 192, m ≠ n → w.core m = s.core m) ∧ w.tongs = s.tongs)
      ∧ (∀ u o, c.objs = [u] → u.role = 2 → u.staged = none → s.tongs.byHandle u.handle = some o → s.tongs.byIdx o.idx = some o →
        o.st = .resident → o.cur.tier ≤ 1 → o.cur.press = false → s.affords o.owner o.cur.tier false false o.extents = true →
        s.tongs.waits = [] → o.owner < 64 → ∃ t k v, exec (.commandStart p) s = .next t ∧ t.getCmd a = some k ∧ k.stage = .staging ∧ t.cores = s.cores
          ∧ k.objs = [{ u with
              staged := some v
              copied := false
              begun := true
              recon := none
              lost := false }]
          ∧ v.tier = o.cur.tier ∧ v.press = false ∧ v.content = o.cur.content))
    ∧ (∀ n l, n < 192 → (s.core n).loading = some l → l.acceptNo = a → (s.core n).cmd = some a → (s.core n).st = .loading → c.stage = .running →
      let clean := s.modCore n fun k => { k with
        skillet := Mem.zero
        me := { k.me with
          buf := Vector.replicate 2 Mem.zero
          scale := Vector.replicate 2 Mem.zero
          acc := Mem.zero }
        sklCnt := vmod k.sklCnt 1 fun x => satAdd 64 x 1
        loading := some { l with
          clearing := false
          started := true } }
      (l.clearing = true →
        (∀ o, s.progTarget c = .ok o → exec (.clearingComplete n) s = .next ((clean.modCore n fun k => { k with sm := { k.sm with
          xfers := k.sm.xfers ++ [programXfer k.sm.nextId h]
          nextId := k.sm.nextId + 1 } }).pumpN n))
        ∧ (∀ code, s.progTarget c = .error code → ∃ t k, exec (.clearingComplete n) s = .next t ∧ t.getCmd a = some k ∧ k.stage = .aborting
          ∧ k.code = code ∧ (t.core n).st = .aborting ∧ (t.core n).faultCode = code ∧ (t.core n).faultQueue = 3
          ∧ (t.core n).skillet = Mem.zero ∧ vget t.log.codeCnt code = satAdd 64 (vget s.log.codeCnt code) 1))
      ∧ (l.clearing = false → l.started = true → s.coreTested n = false → ({ s.core n with races := Vector.replicate 4 {} } : CoreSt).enginesIdle = true →
        exec (.programLoaded n) s = .next (s.modCore n fun k => { k with
            skillet := k.skillet.writeN 0x100000 (msgParams c.message)
            g := vset (vset (Vector.replicate 32 0) 1 0x100000) 2 (toW (msgParams c.message).length)
            t := Vector.replicate 64 0
            p := Vector.replicate 8 false
            pc := 0
            calls := []
            races := Vector.replicate 4 {}
            cur := none
            loading := none
            st := .running
            beatBase := s.now
            progress := true })))
    ∧ (∀ u v o, c.stage = .staging → c.objs = [u] → u.role ≠ 0 → u.staged = some v → u.copied = false → u.recon = none →
      s.hostIdle (.stage a u.handle) = true → s.tongs.byHandle u.handle = some o → o.st = .resident → s.copyAccess o.cur = 0 →
      s.copyAccess v = 0 → s.tongs.waits = [] → (∀ n ∈ c.cores, other n) → ∃ t k, exec (.stagedCopyComplete a u.handle [] (.ok 0)) s = .next t
        ∧ t.getCmd a = some k ∧ k.stage = .running ∧ k.objs = [{ u with copied := true }] ∧ t.tongs = s.tongs)
    ∧ (∀ u v o, c.stage = .commitWait → c.kill = none → s.freezeHolds c.part = false → s.atCeiling c = false → s.dieHold c = false →
      s.unpaired = true → s.cmd.mirrors = [] → s.tongs.moves = [] → c.restored = false → c.preempts = [] →
      (∀ x ∈ (s.part c.part).ctxs, x.ending = []) → c.objs = [u] → u.role ≠ 4 → u.staged = some v → u.lost = false →
      s.tongs.byHandle u.handle = some o → s.tongs.byIdx o.idx = some o → o.phase = .none → o.evictQ = none → s.tongs.waits = [] →
      s.tongs.merge = [] → ∃ t o', exec (.localCommit a) s = .next t
        ∧ t.tongs.byIdx o.idx = some o' ∧ o'.cur.content = v.content ∧ o'.cur.wheres = v.wheres ∧ o'.cur.tier = v.tier ∧ o'.st = .resident
        ∧ o'.version = a ∧ o'.lastUse = s.now ∧ o'.handle = o.handle ∧ o'.stagedBy = o.stagedBy.filter (fun b => b != a)
        ∧ t.getCmd a = none ∧ (∃ r ∈ t.tongs.releases, r.wheres = o.cur.wheres)
        ∧ t.outbox.getLast? = some (s.replyItem c.tag (c.finalReply 3 0 0 0 0 false s.now [])))

/-- The course of a GROUP command on a participant (R59 to R64, R369 to R376). A slip moves the base of the group and of its
cores by 512 beats; a reached rendezvous with every READY starts its step, and one without makes the package vote ABORT with
0x37; a child's COMMIT is kept, and a negative vote goes to the parent; the coordinator decides at C + 256, and aborts a
COMMIT decision whose mirror is not acknowledged by D - 192. A decision is applied: ABORT stops the cores, COMMIT commits,
and at D the command is COMPLETE. Without a decision the package is IN_DOUBT and queries. A slip received too late, or for a
rendezvous that has begun, makes the package vote ABORT with 0x35. These commands complete: RENDEZVOUS_LEAD,
RENDEZVOUS_REACHED, SLIP, READY, VOTE, VOTE_TIMEOUT, COMMIT_MIRROR_TIMEOUT, DECISION, DECISION_BEAT, RERUN_START, IN_DOUBT,
IN_DOUBT_QUERY. The model's choices: The corners of rendezvous are assumption 36, and the mirror of a decision is assumption
34. -/
def Obligations.GroupCourse : Prop :=
  ∀ (s : State) (v : Via) (c : Cmd) (g : Group), s.getCmd c.acceptNo = some c → c.group = some g →
    let a := c.acceptNo
    let base := fun (t : State) => (t.getCmd a).bind fun k => k.group.map (·.base)
    let slid := fun (t : State) (k : Nat) => base t = some (g.base + 512)
      ∧ (t.getCmd a).bind (fun x => x.group.map fun y => alGet y.slips k 0) = some (alGet g.slips k 0 + 1)
      ∧ vget t.beat.cnt 17 = satAdd 64 (vget s.beat.cnt 17) 1
      ∧ ∀ n < 192, t.core n = if c.cores.contains n then { s.core n with beatBase := (s.core n).beatBase + 512 } else s.core n
    let open_ := g.voted = none ∧ g.decision = none
    (c.cores.Nodup → c.active = true → open_ →
      (∀ k, g.k ≤ k → k < g.nrdv → g.readySent.contains k = false → s.now + 256 = g.rk k → alGet g.slips k 0 < s.beat.maxSlips →
        ∃ t, exec (.rendezvousLead a k) s = .next t ∧ slid t k ∧ t.log = s.log)
      ∧ (∀ n f, g.k + 1 < g.nrdv → s.now = g.rk g.k → g.readySent.contains g.k = true →
        ((s.peers g g.k).all fun p => g.readies.contains (p, g.k)) = true → c.cores = [n] → n < 192 → (s.core n).executes 5 f = true →
        f.e.op = 0x05 → fld f.e.b 63 56 = g.k → ∃ t, exec (.rendezvousReached a) s = .next t
          ∧ t.getCmd a = some { c with group := some { g with k := g.k + 1 } } ∧ t.core n = (s.core n).completed 5 f
          ∧ (∀ m < 192, m ≠ n → t.core m = s.core m))
      ∧ (g.k < g.nrdv → s.now = g.rk g.k → g.readySent.contains g.k = false → ∃ t k, exec (.rendezvousReached a) s = .next t
        ∧ t.getCmd a = some k ∧ k.kill = some (0x42, 2, 0x37, s.pkgIdField) ∧ k.killEdge = s.beat.edge + 1
        ∧ vget t.log.codeCnt 0x37 = satAdd 64 (vget s.log.codeCnt 0x37) 1))
    ∧ (s.cmdOfGroup g.gid = some c →
      (s.admits v 0x02 = true → ∀ k rk cause,
        (c.cores.Nodup → g.k ≤ k → k < g.nrdv → rk = g.rk k → s.now + 32 < rk → ∃ t, exec (.slip v g.gid k rk cause none) s = .next t ∧ slid t k)
        ∧ ((k < g.k → rk ≠ g.rkBegun k) → (g.k ≤ k → rk ≠ g.rk k) → exec (.slip v g.gid k rk cause none) s =
          .next ((s.takeRx v 0x02).modBeat fun b => { b with cnt := vmod b.cnt 16 fun x => satAdd 64 x 1 }))
        ∧ (k < g.nrdv → (k < g.k ∧ rk = g.rkBegun k) ∨ (g.k ≤ k ∧ rk = g.rk k ∧ rk ≤ s.now + 32) → open_ → c.kill = none → c.stage ≠ .aborting →
          ∃ t x, exec (.slip v g.gid k rk cause none) s = .next t ∧ t.getCmd a = some x ∧ x.kill = some (0x42, 2, 0x35, s.pkgIdField)
            ∧ x.killEdge = s.beat.edge + 1 ∧ vget t.log.codeCnt 0x35 = satAdd 64 (vget s.log.codeCnt 0x35) 1 ∧ t.cores = s.cores))
      ∧ (s.admits v 0x01 = true → ∀ k, g.readies.contains (v.src, k) = false → exec (.ready v g.gid k) s =
        .next ((s.takeRx v 0x01).modCmd a fun x => { x with group := some { g with readies := g.readies ++ [(v.src, k)] } }))
      ∧ (∀ w : Vote, s.admits v 0x03 = true → w.gid = g.gid → w.epoch = c.epoch → g.decision = none → c.stage ≠ .prepared →
        (w.kind = 1 → g.commits.contains v.src = false → exec (.vote v w) s =
          .next ((s.takeRx v 0x03).modCmd a fun x => { x with group := some { g with commits := g.commits ++ [v.src] } }))
        ∧ (∀ p, w.kind = 2 ∨ w.kind = 3 → s.voteParent g = some p → g.forwarded = false → g.voted = none → exec (.vote v w) s =
          .next ((((s.takeRx v 0x03).modCmd a fun x => { x with group := some { g with restart := max g.restart w.restart, forwarded := true } }).sendFabric
            { body := .vote w, dst := p, dunit := 0xF1, sunit := 0xF1 }).modCmdU fun u => { u with cnt := vmod u.cnt 5 fun x => satAdd 64 x 1 })))
      ∧ (∀ d : Decision, s.admits v 0x04 = true → s.tongs.waits = [] → d.gid = g.gid → d.epoch = c.epoch → g.decision = none →
        let w := (s.takeRx v 0x04).modCmdU fun u => { u with cnt := vmod u.cnt 6 fun x => satAdd 64 x 1 }
        (d.kind = 2 ∨ d.kind = 3 → s.coresIdle a = false → c.kill = none → c.stage ≠ .aborting → exec (.decision v d none) s =
          .next (w.modCmd a fun x => { x with
            group := some { g with decision := some d }
            kill := some (0x42, 2, d.cause, d.first)
            killEdge := s.beat.edge + 1 }))
        ∧ (d.kind = 1 → c.stage = .prepared → s.unpaired = true → s.now < d.beat → ∃ t, exec (.decision v d none) s = .next t
          ∧ t.getCmd a = some { c with stage := .committing, group := some { g with decision := some d } }
          ∧ (∃ r, t.cmd.journal = s.cmd.journal ++ [r] ∧ r.acceptNo = a ∧ r.payload = .commitGroup d.beat) ∧ t.tongs = s.tongs)))
    ∧ (c.stage = .prepared → g.decision = none → s.unpaired = true →
      let decided := fun (t : State) (code : Nat) => vget t.log.codeCnt code = satAdd 64 (vget s.log.codeCnt code) 1
        ∧ ∃ d ∈ t.cmd.partnerDec, d.gid = g.gid ∧ d.epoch = c.epoch ∧ d.kind ≠ 1 ∧ d.cause = code ∧ d.first = s.cfg.pkgId
      (g.nrdv ≤ g.k → s.voteParent g = none → g.deciding = none → g.commitBeat + 256 ≤ s.now →
        ∃ t, exec (.voteTimeout a) s = .next t ∧ decided t 0x42)
      ∧ (∀ d tag, g.deciding = some (d, tag) → d.beat ≤ s.now + 192 → ∃ t, exec (.commitMirrorTimeout a) s = .next t ∧ decided t 0x4F)
      ∧ (g.voted = some 1 → g.commitBeat + 1280 ≤ s.now → exec (.inDoubt a) s = .next ((s.modCmd a fun x =>
          { x with stage := .inDoubt, group := some { g with lastQuery := s.beat.edge } }).modCmdU fun u =>
            { u with cnt := vmod u.cnt 7 fun x => satAdd 64 x 1 })))
    ∧ (c.stage = .inDoubt → g.lastQuery + 4096 ≤ s.beat.edge → exec (.inDoubtQuery a) s = .next (((s.modCmd a fun x =>
        { x with group := some { g with queries := g.queries + 1, lastQuery := s.beat.edge } }).sendFabric
          { body := .vote { gid := g.gid, epoch := c.epoch, kind := 4, voter := s.cfg.pkgId, rerunDelay := g.rerunDelay },
            dst := if g.queries % 2 = 0 then g.boxLo else g.coordPartner, dunit := 0xF1, sunit := 0xF1 }).modCmdU fun u =>
              { u with cnt := vmod u.cnt 5 fun x => satAdd 64 x 1 }))
    ∧ (∀ d, c.stage = .committing → g.decision = some d → d.beat ≤ s.now → c.objs = [] → s.cmd.mirrors = [] → s.unpaired = true → s.tongs.waits = [] →
      c.restored = false → c.preempts = [] → (∀ x ∈ (s.part c.part).ctxs, x.ending = []) → ∃ t, exec (.decisionBeat a) s = .next t
        ∧ t.getCmd a = none ∧ t.outbox.getLast? = some (s.replyItem c.tag (c.finalReply 3 0 0 0 0 false d.beat [])))
    ∧ (c.stage = .queued → c.attempts ≠ 0 → g.base ≤ s.now → c.notBefore ≤ s.now → s.now + 256 ≤ g.rk 0 → s.partFree c.part = true →
      (s.jobHead c.part c.job).map (·.acceptNo) = some a → c.objs = [] → c.part < 16 → ∃ t k, exec (.rerunStart a) s = .next t ∧ t.getCmd a = some k
        ∧ k.stage = .running ∧ k.attempts = c.attempts + 1 ∧ (t.part c.part).running = some a)

/-! ## The Lid (R383 to R411) -/

/-- Pairing (R383, Table 13.1). A PAIR is decided by the first row of the table that applies and answered with SLOT_ACK; a
REFUSED pairing stays so; and PAIR is sent again 2^25 beats after the last one to a partner that has not answered. These
commands complete: PAIR, PAIR_RETRY. The model's choices: The course of a pairing's messages is assumption 23. -/
def Obligations.Pairing : Prop :=
  ∀ (s : State) (v : Via) (pkg feed partner slotGib : Nat), s.admits v 0x15 = true →
    let l := s.lid
    let u := s.takeRx v 0x15
    let decided := fun (st : PairState) (code sub : Nat) =>
      let t := u.modLid fun l => { l with
        st := st, partnerFeed := feed, partnerId := pkg
        heldSlots := if pkg = l.partner then l.heldSlots.filter fun h => h.sealBytes.isSome else l.heldSlots }
      (if code = 0 then t else t.logEv { code := code, unit := 0xF3, sub := sub }).ackSlot v code sub l.heldValid
    let tray := fun (a : Nat) => (coord a 0, coord a 1, coord a 2)
    let named := l.partner = pkg ∧ partner = s.cfg.pkgId
    let room := l.slotGib = slotGib ∧ s.reserveOk = true
    let oneFeed := feed = s.power.feedId ∨ feed = 0xF ∨ s.power.feedId = 0xF
    (l.partnerValid = true → (l.st = .unpaired ∨ l.st = .pairing) → (pkg = l.partner → ∀ h ∈ l.heldSlots, h.sealBytes.isSome = true) →
      (tray pkg = tray s.cfg.pkgId → exec (.pair v pkg feed partner slotGib) s = .next (decided .refused 0x76 1))
      ∧ (tray pkg ≠ tray s.cfg.pkgId →
        (¬ named → exec (.pair v pkg feed partner slotGib) s = .next (decided .refused 0x76 2))
        ∧ (named → ¬ room → exec (.pair v pkg feed partner slotGib) s = .next (decided .refused 0x76 3))
        ∧ (named → room → oneFeed → exec (.pair v pkg feed partner slotGib) s = .next (decided .degraded 0x77 0))
        ∧ (named → room → ¬ oneFeed → exec (.pair v pkg feed partner slotGib) s = .next (decided .paired 0 0))))
    ∧ (l.st = .refused → exec (.pair v pkg feed partner slotGib) s =
        .next (u.ackSlot v 0x76 (s.pairDecision pkg feed partner slotGib).2.2 []))
    ∧ (s.power.ready = true → l.partnerValid = true → s.cfg.valid = true → l.st = .pairing → s.partnerRoute = true →
      l.pairEdge + 2 ^ 25 ≤ s.beat.edge → exec .pairRetry s = .next
        (({ s with nextTag := (s.nextTag + 1) % 65536 }.sendFabric
          { body := .pair s.cfg.pkgId s.power.feedId l.partner l.slotGib, dst := l.partner, dunit := 0xF3, sunit := 0xF3, tag := s.nextTag }).modLid
            fun l => { l with pairOut := some s.nextTag, pairTries := 1, pairEdge := s.beat.edge }))

/-- The owner's side of a secure (R390 to R396, R397). A secure that is due is frozen at the first commit point: the image
takes the state of the partition, and the clearing of the inactive slot's seal goes out, or the secure is abandoned with
0x78, detail 1, when the image exceeds its slot. Each acknowledgement leads to the next step: pages while RATE is not 0, then
the seal, with which the new image is valid, then the pointer copies, and the last completes the secure: the new slot is the
active one. A page of an extent that is gone abandons it with 0x78, detail 3; a refused verification abandons it with 0x79,
and the previous image stays the one read. These commands complete: FREEZE, SLOT_ACK. The model's choices: One message
outstanding at a time, and record 0x79 alone, are assumption 23; the layout of the header is assumption 24. -/
def Obligations.SecureSteps : Prop :=
  (∀ (s : State) (p : Nat), p < 16 →
    let l := s.lp p
    let i := s.imageOf p
    let frozen := (s.modLid fun u => { u with
      dueQ := u.dueQ.filter fun q => q != p
      cnt := vmod u.cnt 0 fun x => satAdd 64 x 1 }).modLp p fun l => { l with due := false, stepsSince := 0, lastFreeze := s.beat.count, commitsSince := 0 }
    s.secured p = true → l.due = true → l.align = false → s.anyBrown = false → s.securing p = false →
    (s.committing p = true → exec (.freeze p) s = .next s)
    ∧ (s.committing p = false → l.slotUnits * 2 ^ 21 < i.bytes → ∃ t, exec (.freeze p) s = .next t
      ∧ t = ((frozen.modLid fun u => { u with cnt := vmod u.cnt 2 fun x => satAdd 64 x 1 }).modLp p fun l => { l with again := true }).logEv
        { code := 0x78, unit := 0xF3, sub := 1 })
    ∧ (s.committing p = false → i.bytes ≤ l.slotUnits * 2 ^ 21 → s.lid.secure = none → s.lid.frozen = [] →
      let slot := if l.active = 1 then 1 else 0
      exec (.freeze p) s = .next (({ frozen with nextTag := (s.nextTag + 1) % 65536 }.sendFabric
        { body := .sealRec 0 p slot (List.replicate 256 0), dst := s.lid.partner, dunit := 0xF3, sunit := 0xF3, tag := s.nextTag }).modLid
          fun u => { u with secure := some { part := p, slot := slot, gen := l.gen + 1, image := i, step := .clearSeal
                                             pages := i.sendPages, out := [s.nextTag], sentEdge := s.beat.edge } }))
    ∧ i.freezeBeat = s.beat.count ∧ i.freezeSeq + 1 = max 1 s.cmd.nextSeq ∧ i.part = p ∧ i.gen = l.gen + 1
    ∧ (∀ x, (∃ y ∈ i.objs, y.obj = x) ↔ x ∈ s.tongs.objs ∧ x.part = p ∧ x.st ≠ .creating)
    ∧ (∀ y ∈ i.objs, y.content = if y.obj.secure = true ∧ y.obj.cur.tier ≤ 1 then some y.obj.cur.content else none))
  ∧ ∀ (s : State) (v : Via) (x : Secure) (slots : List (Nat × Nat × Nat)), s.admits v 0x33 = true → s.lid.pairOut ≠ some v.tag →
    s.lid.secure = some x → x.out = [v.tag] → x.part < 16 →
    let u := s.takeRx v 0x33
    let sends := fun (t : State) (y : Secure) (b : Body) =>
      ({ t with nextTag := (s.nextTag + 1) % 65536 }.sendFabric { body := b, dst := s.lid.partner, dunit := 0xF3, sunit := 0xF3, tag := s.nextTag }).modLid
        fun l => { l with secure := some { y with out := [s.nextTag], sentEdge := s.beat.edge, tries := 1 } }
    let page := fun (t : State) (y : Secure) =>
      let k := y.image.pageIndex y.page
      sends ({ t with lid := { t.lid with cnt := vmod t.lid.cnt 3 fun c => satAdd 64 c 4096 } }) y
        (.slotWrite x.part x.slot k (x.gen % 4096) (x.image.page k))
    let invalid := u.modLp x.part fun l => { l with
      images := l.images.filter fun i => !(i.1 == 0 && i.2.1 == x.slot)
      seqA := if x.slot = 0 then none else l.seqA
      seqB := if x.slot = 1 then none else l.seqB }
    let source := fun (k : Nat) => x.image.source (x.image.pageIndex k)
    let readable := fun (k : Nat) => ∀ o off, source k = some (o, off) → (o.cur.tier = 0 → s.sliceAccess (o.cur.slice off) = 0)
      ∧ (o.cur.tier ≠ 0 → s.copyAccess o.cur = 0)
    (x.recon = none →
      (x.step = .clearSeal → s.lid.rate ≠ 0 → readable 0 → exec (.slotAck v 0 0 slots (.ok 0)) s =
        .next (page invalid { x with step := .pages, page := 0 }))
      ∧ (∀ r, x.step = .clearSeal → s.lid.rate = 0 → exec (.slotAck v 0 0 slots r) s =
        .next (invalid.modLid fun l => { l with secure := some { x with step := .pages, page := 0, out := [] } }))
      ∧ (x.step = .pages → s.lid.rate ≠ 0 → x.page + 1 < x.pages → readable (x.page + 1) → exec (.slotAck v 0 0 slots (.ok 0)) s =
        .next (page u { x with page := x.page + 1 }))
      ∧ (∀ r o off, x.step = .pages → s.lid.rate ≠ 0 → x.page + 1 < x.pages → source (x.page + 1) = some (o, off) → o.cur.tier = 0 →
        s.sliceAccess (o.cur.slice off) = 2 → s.lid.frozen = [] → ∃ t, exec (.slotAck v 0 0 slots r) s = .next t ∧ t.lid.secure = none
          ∧ (t.lp x.part).images = (s.lp x.part).images ∧ (t.lp x.part).again = true
          ∧ vget t.lid.cnt 2 = satAdd 64 (vget s.lid.cnt 2) 1 ∧ vget t.log.codeCnt 0x78 = satAdd 64 (vget s.log.codeCnt 0x78) 1)
      ∧ (∀ r, x.step = .pages → x.pages ≤ x.page + 1 → exec (.slotAck v 0 0 slots r) s = .next
        (sends u { x with step := .sealing, page := 0 } (.sealRec 1 x.part x.slot ((s.sealOf x.image x.slot 0).record ++ [0, 0, 0, 0]))))
      ∧ (∀ r, x.step = .sealing → exec (.slotAck v 0 0 slots r) s = .next
        (sends ((u.modLp x.part fun l => { l with
            images := (l.images.filter fun i => !(i.1 == 0 && i.2.1 == x.slot)) ++ [(0, x.slot, x.image)]
            seqA := if x.slot = 0 then some x.image.freezeSeq else l.seqA
            seqB := if x.slot = 1 then some x.image.freezeSeq else l.seqB }).dropCovered x.part)
          { x with step := .pointer0, page := 0 } (.sealRec 2 x.part x.slot (pointerBytes x.gen x.slot))))
      ∧ (∀ r, x.step = .pointer0 → exec (.slotAck v 0 0 slots r) s = .next
        (sends (u.modLp x.part fun l => { l with ptrs := (l.ptrs.filter fun y => !(y.1 == 0 && y.2.1 == 0)) ++ [(0, 0, x.slot, x.gen)] })
          { x with step := .pointer1, page := 0 } (.sealRec 3 x.part x.slot (pointerBytes x.gen x.slot)))))
    ∧ (∀ r, x.step = .pointer1 → s.lid.frozen = [] → s.lid.nFlash = 0 → s.lid.nStore = 0 → s.cmd.cmds = [] →
      ∃ t, exec (.slotAck v 0 0 slots r) s = .next t ∧ t.lid.secure = none ∧ (t.lp x.part).active = x.slot + 1 ∧ (t.lp x.part).gen = x.gen
        ∧ (t.lp x.part).freezeBeat = x.image.freezeBeat ∧ (t.lp x.part).images = (s.lp x.part).images
        ∧ (0, 1, x.slot, x.gen) ∈ (t.lp x.part).ptrs
        ∧ (∀ q < 16, q ≠ x.part → t.lp q = s.lp q) ∧ t.cores = s.cores ∧ t.tongs.objs = s.tongs.objs ∧ t.log = s.log
        ∧ vget t.lid.cnt 1 = satAdd 64 (vget s.lid.cnt 1) 1)
    ∧ (∀ code r, code ≠ 0 → s.lid.frozen = [] → exec (.slotAck v code 0 slots r) s = .next
      (((u.modLid fun l => { l with secure := none, cnt := vmod l.cnt 2 fun c => satAdd 64 c 1 }).modLp x.part fun l => { l with
        again := true }).logEv { code := 0x79, unit := 0xF3, sub := x.part }))

/-- The partner's side (R392, R393): a page, the clearing of a seal, and a pointer copy are written and acknowledged; a seal
is written, with the CRC-32C of its bytes 0 to 251, only when what the slot holds agrees with it, and answered with 0x79
otherwise; a message of another package is refused. These commands complete: SLOT_WRITE, SEAL. The model's choices: The
message SEAL with its operand is assumption 23. -/
def Obligations.PartnerSide : Prop :=
  ∀ (s : State) (v : Via) (p slot page gen what : Nat) (b : List Byte), s.admits v 0x13 = true → s.admits v 0x14 = true →
    let held := fun (u : State) (h : HeldSlot) => u.modLid fun l => { l with heldSlots := [h] }
    (∀ h, p < 16 → slot < 2 → s.unpaired = false → v.src = s.lid.partner → s.lid.heldSlots = [h] → h.part = p → h.slot = slot →
      (page < s.lid.slotGib * 2 ^ 18 → b.length = 4096 → exec (.slotWrite v p slot page gen b) s = .next
        (((held (s.takeRx v 0x13) { h with gen := gen, pages := (h.pages.filter fun x => x.1 != page) ++ [(page, b)] }).modLid fun l =>
          { l with cnt := vmod l.cnt 4 fun c => satAdd 64 c 4096 }).ackSlot v 0 0 []))
      ∧ (let u := s.takeRx v 0x14
         (what = 0 → exec (.seal v what p slot b) s = .next ((held u { h with sealBytes := none, pages := [] }).ackSlot v 0 0 []))
         ∧ (what = 1 → h.agrees b = true → exec (.seal v what p slot b) s = .next
            (((held u { h with sealBytes := some (b.take 252 ++ leBytes 4 (crc32c ((b.take 252).map (·.toNat)))), gen := leAt b 8 8 }).modLid
              fun l => { l with cnt := vmod l.cnt 5 fun c => satAdd 64 c 1 }).ackSlot v 0 0 []))
         ∧ (what = 1 → h.agrees b = false → exec (.seal v what p slot b) s = .next
            (((u.modLid fun l => { l with cnt := vmod l.cnt 6 fun c => satAdd 64 c 1 }).logEv
              { code := 0x79, unit := 0xF3, sub := p, pkg := v.src }).ackSlot v 0x79 0 []))
         ∧ (what = 2 ∨ what = 3 → exec (.seal v what p slot b) s = .next ((u.modLid fun l => { l with
            heldPtr := (l.heldPtr.filter fun x => !(x.1 == p && x.2.1 == what - 2)) ++ [(p, what - 2, b)] }).ackSlot v 0 0 []))))
    ∧ (s.unpaired = true ∨ v.src ≠ s.lid.partner →
      exec (.slotWrite v p slot page gen b) s = .next ((s.takeRx v 0x13).ackSlot v 0x76 2 [])
      ∧ exec (.seal v what p slot b) s = .next ((s.takeRx v 0x14).ackSlot v 0x76 2 []))

/-- Flash, store and risk (R399, R401, R403). Each completion leads the flash copy to its next write, in the order data
pages, Flush, seal, pointer copies, and the last makes the image one of the flash; an error abandons it with 0x78, detail 4.
LID_STORE_ACK with the partition and the generation of the notification that waits lets the next store copy begin, and
another value changes nothing. At the end of a decay period the risk estimate loses an eighth. These commands complete:
NVME_COMPLETION, LID_STORE_ACK, RISK_DECAY. The model's choices: The layout of the store and DECAY 0 are assumption 23. -/
def Obligations.SlowCopiesAndRisk : Prop :=
  (∀ (s : State) (x : SlowCopy), s.lid.flash = some x → x.part < 16 → x.waits = false → x.recon = none →
    let goes := fun (u : State) (y : SlowCopy) (i : OutItem) =>
      { u with lid := { u.lid with flash := some y }, outbox := s.outbox ++ [i] }
    let sealAt := OutItem.nvmeWrite (s.lid.firstLba + x.part) true
    let point := fun (l : LidPart) (copy : Nat) => { l with
      ptrs := (l.ptrs.filter fun y => !(y.1 == 1 && y.2.1 == copy)) ++ [(1, copy, x.slot, x.gen)] }
    (∀ r, exec (.nvmeCompletion false r) s = .next ((s.modLid fun l => { l with flash := none }).logEv { code := 0x78, unit := 0xF3, sub := 4 }))
    ∧ (x.step = 0 → x.page + 1 < x.image.sendPages → s.lid.rate ≠ 0 →
      (∀ o off, x.image.source (x.image.pageIndex (x.page + 1)) = some (o, off) → (o.cur.tier = 0 → s.sliceAccess (o.cur.slice off) = 0)
        ∧ (o.cur.tier ≠ 0 → s.copyAccess o.cur = 0)) →
      exec (.nvmeCompletion true (.ok 0)) s = .next
        (goes s { x with page := x.page + 1 } (.nvmeWrite (s.flashLba x.part x.slot (x.image.pageIndex (x.page + 1))) false)))
    ∧ (∀ r, x.step = 0 → x.page + 1 < x.image.sendPages → s.lid.rate = 0 → exec (.nvmeCompletion true r) s = .next (s.modLid fun l => { l with
        flash := some { x with page := x.page + 1, waits := true } }))
    ∧ (∀ r, x.step = 0 → x.image.sendPages ≤ x.page + 1 → exec (.nvmeCompletion true r) s = .next (goes s { x with step := 1 } .nvmeFlush))
    ∧ (∀ r, x.step = 1 → exec (.nvmeCompletion true r) s = .next (goes s { x with step := 2 } sealAt))
    ∧ (∀ r, x.step = 2 → exec (.nvmeCompletion true r) s = .next (goes (s.modLp x.part fun l => { l with
        images := (l.images.filter fun i => !(i.1 == 1 && i.2.1 == x.slot)) ++ [(1, x.slot, x.image)] }) { x with step := 3 } sealAt))
    ∧ (∀ r, x.step = 3 → exec (.nvmeCompletion true r) s = .next (goes (s.modLp x.part fun l => point l 0) { x with step := 4 } sealAt))
    ∧ (∀ r, x.step = 4 → exec (.nvmeCompletion true r) s = .next ((s.modLp x.part fun l => point l 1).modLid fun l => { l with
        flash := none, cnt := vmod l.cnt 7 fun c => satAdd 64 c 1 })))
  ∧ (∀ (s : State) (v : Via) (p g : Nat), s.admits v 0x22 = true → s.power.ready = true → s.lid.storeWait = some (p, g) → p < 16 →
    ∀ q k, q < 16 → k < 2 ^ 32 →
    let u := s.takeRx v 0x22
    (q = p → k = g % 2 ^ 32 → exec (.lidStoreAck v q k) s = .next ((u.modLid fun l => { l with storeWait := none }).csrReply v.tag 0 0))
    ∧ (q ≠ p ∨ k ≠ g % 2 ^ 32 → exec (.lidStoreAck v q k) s = .next (u.csrReply v.tag 0 0)))
  ∧ (∀ (s : State), s.lid.decay ≠ 0 → s.lid.lastDecay + s.lid.decay * 65536 ≤ s.beat.edge → exec .riskDecay s = .next
    (s.modLid fun l => { l with risk := l.risk - l.risk / 8, lastDecay := s.beat.edge }))

/-- Restorations (R387, R407, R408). RESTORE holds a native partition, whose next commands wait, and is refused for a
compatibility partition with 0x7A, detail 3. Once the image is read and its checks pass, the partition takes its enable, its
cores and its frozen objects with their content, record 0x7C tells its generation, and the partition is held no longer; with
no image the outcome is detail 1, with a failed check detail 2, with a source that is gone detail 4. While RATE is 0 nothing
is read. These commands complete: RESTORE, RESTORATION_COMPLETE. The model's choices: The package's record of the images is
assumption 23. -/
def Obligations.Restorations : Prop :=
  (∀ (s : State) (v : Via) (source p : Nat), s.admits v 0x22 = true → s.power.ready = true → p < 16 → source < 3 →
    let u := s.takeRx v 0x22
    ((s.lp p).native = false → exec (.restore v source p) s =
      .next ((u.logEv { code := 0x7A, unit := 0xF3, sub := 3 }).csrReply v.tag 0x7A 0))
    ∧ ((s.lp p).native = true → (s.part p).running = none → (∀ r ∈ s.lid.restoring, r.part ≠ p) → exec (.restore v source p) s = .next
      (((u.modPart p fun x => { x with heldRestore := true }).modLid fun l => { l with
        restoring := l.restoring ++ [{ part := p, source := source, point := s.lid.restorePoint }] }).csrReply v.tag 0 0)))
  ∧ ∀ (s : State) (p : Nat) (r : Restoring) (ok : Bool), p < 16 → s.lid.restoring = [r] → r.part = p → (s.part p).running = none →
    (s.lid.rate = 0 → exec (.restorationComplete p ok) s = .next s) ∧ (s.lid.rate ≠ 0 →
    let fails := fun (d : Nat) => (s.modLid fun l => { l with restoring := [] }).logEv { code := 0x7A, unit := 0xF3, sub := d }
    let up := (r.source = 0 ∧ s.unpaired = false) ∨ (r.source = 1 ∧ s.lid.flashOk = true) ∨ (r.source = 2 ∧ (s.port 16).st = .active)
    (¬ up → exec (.restorationComplete p ok) s = .next (fails 4))
    ∧ (up → (∀ i ∈ (s.lp p).images, i.1 ≠ r.source) → exec (.restorationComplete p ok) s = .next (fails 1))
    ∧ (∀ slot i, up → (s.lp p).images = [(r.source, slot, i)] → r.point = 0 ∨ r.point = i.freezeBeat → ok = false →
      exec (.restorationComplete p ok) s = .next (fails 2))
    ∧ (∀ slot i x m, up → (s.lp p).images = [(r.source, slot, i)] → r.point = 0 ∨ r.point = i.freezeBeat → ok = true →
      s.cmd.cmds = [] → s.cmd.journal = [] → i.journal = [] → s.tongs.waits = [] → s.tongs.objs = [] → i.objs = [x] → x.content = some m →
      ∃ t o, exec (.restorationComplete p ok) s = .next t ∧ t.lid.restoring = [] ∧ (t.part p).heldRestore = false
        ∧ (t.part p).enable = i.enable ∧ (t.part p).cores = i.cores ∧ t.tongs.objs = [o] ∧ o.handle = x.obj.handle ∧ o.owner = x.obj.owner
        ∧ o.size = x.obj.size ∧ o.cur.content = m ∧ o.cur.tier = x.obj.cur.tier ∧ o.cur.press = x.obj.cur.press
        ∧ vget t.log.codeCnt 0x7C = satAdd 64 (vget s.log.codeCnt 0x7C) 1 ∧ (∀ q < 16, q ≠ p → t.part q = s.part q) ∧ t.cores = s.cores))

/-! ## Instruction words and the log -/

/-- Every 128-bit word is one instruction and every instruction is one word (R75, Table 3.3): the fields of the word of an
instruction are that instruction's, for every value of each field, and the word of a word's fields is that word. So the word
at the PC of a core that can fetch makes exactly one instruction the one that it fetches. -/
def Obligations.InstructionWordsRoundTrip : Prop :=
  (∀ (q op : Nat) (h : Hdr) (b : Word), q < 8 → op < 256 →
    let w := instWord q op h b
    w < 2 ^ 128 ∧ bitsOf w 127 125 = q ∧ bitsOf w 124 117 = op ∧ hdrOf (w / 2 ^ 64) = h ∧ BitVec.ofNat 64 w = b)
  ∧ (∀ w, w < 2 ^ 128 → instWord (bitsOf w 127 125) (bitsOf w 124 117) (hdrOf (w / 2 ^ 64)) (.ofNat 64 w) = w)
  ∧ (∀ (s : State) (n : Nat), n < 192 → (s.core n).fetches = true → (s.core n).pc < (s.core n).progEnd → (s.core n).lineHeld = true →
    ∃ q op h b, s.fetchesNow n q op h b = true ∧ q < 8 ∧ op < 256
      ∧ ∀ q' op' h' b', q' < 8 → op' < 256 → s.fetchesNow n q' op' h' b' = true → q' = q ∧ op' = op ∧ h' = h ∧ b' = b)

/-- The log ring stays in order at every step (R491, R492): it holds at most 4,096 records, the newest with a SEQ one below
HLT_LOG_NEXT, and each older one with a SEQ one below the record after it. -/
def Obligations.LogRingStaysInOrder : Prop :=
  ∀ (s t : State), s.log.ringOk → step s = .next t → t.log.ringOk

/-- The log ring is in order after reset. -/
def Obligations.LogRingInOrderAtReset : Prop :=
 State.reset.log.ringOk
end

