-- ==== Sys2Proof/Laws/Bits.lean ====
section
/-!
SUPPORT. Tables: what reading an entry gives after a write.
-/

namespace Sys2Proof.Machine

open Sys2Proof

/-- An entry inside a table is that entry of the vector. -/
theorem vget_eq {α : Type} {n : Nat} [Inhabited α] (v : Vector α n) (i : Nat) (h : i < n) : vget v i = v[i] := by
  unfold vget
  rw [List.getD_eq_getElem?_getD]
  have hl : i < v.toList.length := by simpa using h
  rw [List.getElem?_eq_getElem hl]
  simp [Vector.toList]

/-- Outside a table an entry is the default. -/
theorem vget_out {α : Type} {n : Nat} [Inhabited α] (v : Vector α n) (i : Nat) (h : n ≤ i) : vget v i = default := by
  unfold vget
  rw [List.getD_eq_getElem?_getD, List.getElem?_eq_none (by simpa using h)]
  rfl

@[simp] theorem vget_vset_self {α : Type} {n : Nat} [Inhabited α] (v : Vector α n) (i : Nat) (x : α) (h : i < n) :
    vget (vset v i x) i = x := by
  rw [vget_eq _ _ h]; simp [vset]

theorem vget_vset_ne {α : Type} {n : Nat} [Inhabited α] (v : Vector α n) (i j : Nat) (x : α) (h : i ≠ j) :
    vget (vset v i x) j = vget v j := by
  by_cases hj : j < n
  · rw [vget_eq _ _ hj, vget_eq _ _ hj]; simp [vset, h]
  · rw [vget_out _ _ (by omega), vget_out _ _ (by omega)]

@[simp] theorem vset_vset {α : Type} {n : Nat} (v : Vector α n) (i : Nat) (x y : α) : vset (vset v i x) i y = vset v i y := by
  apply Vector.ext
  intro j hj
  simp only [vset, Vector.getElem_setIfInBounds]
  split <;> rfl

/-- A write outside a table changes nothing. -/
theorem vset_out {α : Type} {n : Nat} (v : Vector α n) (i : Nat) (x : α) (h : n ≤ i) : vset v i x = v := by
  apply Vector.ext
  intro j hj
  simp only [vset, Vector.getElem_setIfInBounds]
  split
  · omega
  · rfl

@[simp] theorem vset_vget {α : Type} {n : Nat} [Inhabited α] (v : Vector α n) (i : Nat) : vset v i (vget v i) = v := by
  by_cases h : i < n
  · apply Vector.ext
    intro j hj
    simp only [vset, Vector.getElem_setIfInBounds]
    split
    · subst_vars; exact vget_eq _ _ h
    · rfl
  · exact vset_out _ _ _ (by omega)

/-- Writes to two entries commute. -/
theorem vset_comm {α : Type} {n : Nat} (v : Vector α n) (i j : Nat) (x y : α) (h : i ≠ j) :
    vset (vset v i x) j y = vset (vset v j y) i x := by
  apply Vector.ext
  intro k hk
  simp only [vset, Vector.getElem_setIfInBounds]
  split <;> split <;> simp_all

theorem vmod_id {α : Type} {n : Nat} [Inhabited α] (v : Vector α n) (i : Nat) (f : α → α) (h : f (vget v i) = vget v i) :
    vmod v i f = v := by
  unfold vmod; rw [h]; exact vset_vget v i

@[simp] theorem vget_vmod_self {α : Type} {n : Nat} [Inhabited α] (v : Vector α n) (i : Nat) (f : α → α) (h : i < n) :
    vget (vmod v i f) i = f (vget v i) := vget_vset_self _ _ _ h

theorem vget_vmod_ne {α : Type} {n : Nat} [Inhabited α] (v : Vector α n) (i j : Nat) (f : α → α) (h : i ≠ j) :
    vget (vmod v i f) j = vget v j := vget_vset_ne _ _ _ _ h

/-- Every entry of a table satisfies what its list does. -/
theorem vget_of_all {α : Type} {n : Nat} [Inhabited α] (v : Vector α n) (p : α → Bool) (h : v.toList.all p = true)
    (i : Nat) (hi : i < n) : p (vget v i) = true := by
  rw [List.all_eq_true] at h
  rw [vget_eq _ _ hi]
  exact h _ (by simp [Vector.toList])

/-- Two changes of one entry are one. -/
theorem vmod_vmod {α : Type} {n : Nat} [Inhabited α] (v : Vector α n) (i : Nat) (f g : α → α) :
    vmod (vmod v i f) i g = vmod v i fun x => g (f x) := by
  by_cases h : i < n
  · unfold vmod; rw [vget_vset_self _ _ _ h, vset_vset]
  · unfold vmod; rw [vset_out _ _ _ (by omega), vset_out _ _ _ (by omega), vset_out _ _ _ (by omega)]

/-- An item appended to an empty list of a table. -/
theorem vmod_nil {α : Type} {n : Nat} (v : Vector (List α) n) (i : Nat) (x : α) (h : vget v i = []) :
    vmod v i (fun l => l ++ [x]) = vset v i [x] := by
  unfold vmod; rw [h]; rfl

end Sys2Proof.Machine
end

