-- ==== Sys2Proof/Laws/Frames.lean ====
section
/-!
SUPPORT. What the named updates of the units, the sending of a flit and the taking of a received message change, one lemma per
field per update: each changes its own part of the state, and nothing else.
-/

namespace Sys2Proof.Machine

open Sys2Proof

@[simp] theorem State.modCfg_cfg (s : State) (f : CfgSt → CfgSt) : (s.modCfg f).cfg = f s.cfg := rfl
@[simp] theorem State.modFw_fw (s : State) (f : FwSt → FwSt) : (s.modFw f).fw = f s.fw := rfl
@[simp] theorem State.emit_ports (s : State) (p ftype : Nat) (b : List Byte) : (s.emit p ftype b).ports = vmod s.ports p fun q => q.emit ftype b := rfl
@[simp] theorem State.emit_pending (s : State) (p ftype : Nat) (b : List Byte) : (s.emit p ftype b).pending = s.pending := rfl
@[simp] theorem State.emit_freeCtr (s : State) (p ftype : Nat) (b : List Byte) : (s.emit p ftype b).freeCtr = s.freeCtr := rfl
@[simp] theorem State.emit_nextTag (s : State) (p ftype : Nat) (b : List Byte) : (s.emit p ftype b).nextTag = s.nextTag := rfl
@[simp] theorem State.emit_outbox (s : State) (p ftype : Nat) (b : List Byte) : (s.emit p ftype b).outbox = s.outbox := rfl
@[simp] theorem State.emit_beat (s : State) (p ftype : Nat) (b : List Byte) : (s.emit p ftype b).beat = s.beat := rfl
@[simp] theorem State.emit_log (s : State) (p ftype : Nat) (b : List Byte) : (s.emit p ftype b).log = s.log := rfl
@[simp] theorem State.emit_dies (s : State) (p ftype : Nat) (b : List Byte) : (s.emit p ftype b).dies = s.dies := rfl
@[simp] theorem State.emit_links (s : State) (p ftype : Nat) (b : List Byte) : (s.emit p ftype b).links = s.links := rfl
@[simp] theorem State.emit_regions (s : State) (p ftype : Nat) (b : List Byte) : (s.emit p ftype b).regions = s.regions := rfl
@[simp] theorem State.emit_cores (s : State) (p ftype : Nat) (b : List Byte) : (s.emit p ftype b).cores = s.cores := rfl
@[simp] theorem State.emit_tongs (s : State) (p ftype : Nat) (b : List Byte) : (s.emit p ftype b).tongs = s.tongs := rfl
@[simp] theorem State.emit_cmd (s : State) (p ftype : Nat) (b : List Byte) : (s.emit p ftype b).cmd = s.cmd := rfl
@[simp] theorem State.emit_lid (s : State) (p ftype : Nat) (b : List Byte) : (s.emit p ftype b).lid = s.lid := rfl
@[simp] theorem State.emit_integ (s : State) (p ftype : Nat) (b : List Byte) : (s.emit p ftype b).integ = s.integ := rfl
@[simp] theorem State.emit_power (s : State) (p ftype : Nat) (b : List Byte) : (s.emit p ftype b).power = s.power := rfl
@[simp] theorem State.emit_cfg (s : State) (p ftype : Nat) (b : List Byte) : (s.emit p ftype b).cfg = s.cfg := rfl
@[simp] theorem State.emit_fw (s : State) (p ftype : Nat) (b : List Byte) : (s.emit p ftype b).fw = s.fw := rfl
@[simp] theorem State.emit_side (s : State) (p ftype : Nat) (b : List Byte) : (s.emit p ftype b).side = s.side := rfl
@[simp] theorem State.emit_hostReqs (s : State) (p ftype : Nat) (b : List Byte) : (s.emit p ftype b).hostReqs = s.hostReqs := rfl
@[simp] theorem State.emit_heldMsgs (s : State) (p ftype : Nat) (b : List Byte) : (s.emit p ftype b).heldMsgs = s.heldMsgs := rfl
@[simp] theorem State.emit_core_eq (s : State) (p ftype : Nat) (b : List Byte) (x : Nat) : (s.emit p ftype b).core x = s.core x := rfl
@[simp] theorem State.emit_die_eq (s : State) (p ftype : Nat) (b : List Byte) (x : Nat) : (s.emit p ftype b).die x = s.die x := rfl
@[simp] theorem State.emit_region_eq (s : State) (p ftype : Nat) (b : List Byte) (x : Nat) : (s.emit p ftype b).region x = s.region x := rfl
@[simp] theorem State.emit_now_eq (s : State) (p ftype : Nat) (b : List Byte) : (s.emit p ftype b).now = s.now := rfl
@[simp] theorem State.emit_edge_eq (s : State) (p ftype : Nat) (b : List Byte) : (s.emit p ftype b).edge = s.edge := rfl
@[simp] theorem State.emit_pkgIdField_eq (s : State) (p ftype : Nat) (b : List Byte) : (s.emit p ftype b).pkgIdField = s.pkgIdField := rfl
@[simp] theorem State.takeRx_pending (s : State) (v : Via) (m : Nat) : (s.takeRx v m).pending = s.pending := by unfold State.takeRx; split <;> rfl
@[simp] theorem State.takeRx_freeCtr (s : State) (v : Via) (m : Nat) : (s.takeRx v m).freeCtr = s.freeCtr := by unfold State.takeRx; split <;> rfl
@[simp] theorem State.takeRx_nextTag (s : State) (v : Via) (m : Nat) : (s.takeRx v m).nextTag = s.nextTag := by unfold State.takeRx; split <;> rfl
@[simp] theorem State.takeRx_outbox (s : State) (v : Via) (m : Nat) : (s.takeRx v m).outbox = s.outbox := by unfold State.takeRx; split <;> rfl
@[simp] theorem State.takeRx_beat (s : State) (v : Via) (m : Nat) : (s.takeRx v m).beat = s.beat := by unfold State.takeRx; split <;> rfl
@[simp] theorem State.takeRx_log (s : State) (v : Via) (m : Nat) : (s.takeRx v m).log = s.log := by unfold State.takeRx; split <;> rfl
@[simp] theorem State.takeRx_dies (s : State) (v : Via) (m : Nat) : (s.takeRx v m).dies = s.dies := by unfold State.takeRx; split <;> rfl
@[simp] theorem State.takeRx_links (s : State) (v : Via) (m : Nat) : (s.takeRx v m).links = s.links := by unfold State.takeRx; split <;> rfl
@[simp] theorem State.takeRx_regions (s : State) (v : Via) (m : Nat) : (s.takeRx v m).regions = s.regions := by unfold State.takeRx; split <;> rfl
@[simp] theorem State.takeRx_cores (s : State) (v : Via) (m : Nat) : (s.takeRx v m).cores = s.cores := by unfold State.takeRx; split <;> rfl
@[simp] theorem State.takeRx_tongs (s : State) (v : Via) (m : Nat) : (s.takeRx v m).tongs = s.tongs := by unfold State.takeRx; split <;> rfl
@[simp] theorem State.takeRx_cmd (s : State) (v : Via) (m : Nat) : (s.takeRx v m).cmd = s.cmd := by unfold State.takeRx; split <;> rfl
@[simp] theorem State.takeRx_lid (s : State) (v : Via) (m : Nat) : (s.takeRx v m).lid = s.lid := by unfold State.takeRx; split <;> rfl
@[simp] theorem State.takeRx_integ (s : State) (v : Via) (m : Nat) : (s.takeRx v m).integ = s.integ := by unfold State.takeRx; split <;> rfl
@[simp] theorem State.takeRx_power (s : State) (v : Via) (m : Nat) : (s.takeRx v m).power = s.power := by unfold State.takeRx; split <;> rfl
@[simp] theorem State.takeRx_cfg (s : State) (v : Via) (m : Nat) : (s.takeRx v m).cfg = s.cfg := by unfold State.takeRx; split <;> rfl
@[simp] theorem State.takeRx_fw (s : State) (v : Via) (m : Nat) : (s.takeRx v m).fw = s.fw := by unfold State.takeRx; split <;> rfl
@[simp] theorem State.takeRx_side (s : State) (v : Via) (m : Nat) : (s.takeRx v m).side = s.side := by unfold State.takeRx; split <;> rfl
@[simp] theorem State.takeRx_hostReqs (s : State) (v : Via) (m : Nat) : (s.takeRx v m).hostReqs = s.hostReqs := by unfold State.takeRx; split <;> rfl
@[simp] theorem State.takeRx_heldMsgs (s : State) (v : Via) (m : Nat) : (s.takeRx v m).heldMsgs = s.heldMsgs := by unfold State.takeRx; split <;> rfl
@[simp] theorem State.takeRx_core_eq (s : State) (v : Via) (m : Nat) (x : Nat) : (s.takeRx v m).core x = s.core x := by unfold State.takeRx; split <;> rfl
@[simp] theorem State.takeRx_die_eq (s : State) (v : Via) (m : Nat) (x : Nat) : (s.takeRx v m).die x = s.die x := by unfold State.takeRx; split <;> rfl
@[simp] theorem State.takeRx_region_eq (s : State) (v : Via) (m : Nat) (x : Nat) : (s.takeRx v m).region x = s.region x := by unfold State.takeRx; split <;> rfl
@[simp] theorem State.takeRx_now_eq (s : State) (v : Via) (m : Nat) : (s.takeRx v m).now = s.now := by unfold State.takeRx; split <;> rfl
@[simp] theorem State.takeRx_edge_eq (s : State) (v : Via) (m : Nat) : (s.takeRx v m).edge = s.edge := by unfold State.takeRx; split <;> rfl
@[simp] theorem State.takeRx_pkgIdField_eq (s : State) (v : Via) (m : Nat) : (s.takeRx v m).pkgIdField = s.pkgIdField := by unfold State.takeRx; split <;> rfl
@[simp] theorem State.modCmd_pending (s : State) (a : Nat) (f : Cmd → Cmd) : (s.modCmd a f).pending = s.pending := rfl
@[simp] theorem State.modCmd_freeCtr (s : State) (a : Nat) (f : Cmd → Cmd) : (s.modCmd a f).freeCtr = s.freeCtr := rfl
@[simp] theorem State.modCmd_nextTag (s : State) (a : Nat) (f : Cmd → Cmd) : (s.modCmd a f).nextTag = s.nextTag := rfl
@[simp] theorem State.modCmd_outbox (s : State) (a : Nat) (f : Cmd → Cmd) : (s.modCmd a f).outbox = s.outbox := rfl
@[simp] theorem State.modCmd_beat (s : State) (a : Nat) (f : Cmd → Cmd) : (s.modCmd a f).beat = s.beat := rfl
@[simp] theorem State.modCmd_log (s : State) (a : Nat) (f : Cmd → Cmd) : (s.modCmd a f).log = s.log := rfl
@[simp] theorem State.modCmd_dies (s : State) (a : Nat) (f : Cmd → Cmd) : (s.modCmd a f).dies = s.dies := rfl
@[simp] theorem State.modCmd_links (s : State) (a : Nat) (f : Cmd → Cmd) : (s.modCmd a f).links = s.links := rfl
@[simp] theorem State.modCmd_regions (s : State) (a : Nat) (f : Cmd → Cmd) : (s.modCmd a f).regions = s.regions := rfl
@[simp] theorem State.modCmd_cores (s : State) (a : Nat) (f : Cmd → Cmd) : (s.modCmd a f).cores = s.cores := rfl
@[simp] theorem State.modCmd_ports (s : State) (a : Nat) (f : Cmd → Cmd) : (s.modCmd a f).ports = s.ports := rfl
@[simp] theorem State.modCmd_tongs (s : State) (a : Nat) (f : Cmd → Cmd) : (s.modCmd a f).tongs = s.tongs := rfl
@[simp] theorem State.modCmd_lid (s : State) (a : Nat) (f : Cmd → Cmd) : (s.modCmd a f).lid = s.lid := rfl
@[simp] theorem State.modCmd_integ (s : State) (a : Nat) (f : Cmd → Cmd) : (s.modCmd a f).integ = s.integ := rfl
@[simp] theorem State.modCmd_power (s : State) (a : Nat) (f : Cmd → Cmd) : (s.modCmd a f).power = s.power := rfl
@[simp] theorem State.modCmd_cfg (s : State) (a : Nat) (f : Cmd → Cmd) : (s.modCmd a f).cfg = s.cfg := rfl
@[simp] theorem State.modCmd_fw (s : State) (a : Nat) (f : Cmd → Cmd) : (s.modCmd a f).fw = s.fw := rfl
@[simp] theorem State.modCmd_side (s : State) (a : Nat) (f : Cmd → Cmd) : (s.modCmd a f).side = s.side := rfl
@[simp] theorem State.modCmd_hostReqs (s : State) (a : Nat) (f : Cmd → Cmd) : (s.modCmd a f).hostReqs = s.hostReqs := rfl
@[simp] theorem State.modCmd_heldMsgs (s : State) (a : Nat) (f : Cmd → Cmd) : (s.modCmd a f).heldMsgs = s.heldMsgs := rfl
@[simp] theorem State.modCmd_core_eq (s : State) (a : Nat) (f : Cmd → Cmd) (x : Nat) : (s.modCmd a f).core x = s.core x := rfl
@[simp] theorem State.modCmd_die_eq (s : State) (a : Nat) (f : Cmd → Cmd) (x : Nat) : (s.modCmd a f).die x = s.die x := rfl
@[simp] theorem State.modCmd_region_eq (s : State) (a : Nat) (f : Cmd → Cmd) (x : Nat) : (s.modCmd a f).region x = s.region x := rfl
@[simp] theorem State.modCmd_port_eq (s : State) (a : Nat) (f : Cmd → Cmd) (x : Nat) : (s.modCmd a f).port x = s.port x := rfl
@[simp] theorem State.modCmd_now_eq (s : State) (a : Nat) (f : Cmd → Cmd) : (s.modCmd a f).now = s.now := rfl
@[simp] theorem State.modCmd_edge_eq (s : State) (a : Nat) (f : Cmd → Cmd) : (s.modCmd a f).edge = s.edge := rfl
@[simp] theorem State.modCmd_pkgIdField_eq (s : State) (a : Nat) (f : Cmd → Cmd) : (s.modCmd a f).pkgIdField = s.pkgIdField := rfl
@[simp] theorem State.modGroup_pending (s : State) (a : Nat) (f : Group → Group) : (s.modGroup a f).pending = s.pending := rfl
@[simp] theorem State.modGroup_freeCtr (s : State) (a : Nat) (f : Group → Group) : (s.modGroup a f).freeCtr = s.freeCtr := rfl
@[simp] theorem State.modGroup_nextTag (s : State) (a : Nat) (f : Group → Group) : (s.modGroup a f).nextTag = s.nextTag := rfl
@[simp] theorem State.modGroup_outbox (s : State) (a : Nat) (f : Group → Group) : (s.modGroup a f).outbox = s.outbox := rfl
@[simp] theorem State.modGroup_beat (s : State) (a : Nat) (f : Group → Group) : (s.modGroup a f).beat = s.beat := rfl
@[simp] theorem State.modGroup_log (s : State) (a : Nat) (f : Group → Group) : (s.modGroup a f).log = s.log := rfl
@[simp] theorem State.modGroup_dies (s : State) (a : Nat) (f : Group → Group) : (s.modGroup a f).dies = s.dies := rfl
@[simp] theorem State.modGroup_links (s : State) (a : Nat) (f : Group → Group) : (s.modGroup a f).links = s.links := rfl
@[simp] theorem State.modGroup_regions (s : State) (a : Nat) (f : Group → Group) : (s.modGroup a f).regions = s.regions := rfl
@[simp] theorem State.modGroup_cores (s : State) (a : Nat) (f : Group → Group) : (s.modGroup a f).cores = s.cores := rfl
@[simp] theorem State.modGroup_ports (s : State) (a : Nat) (f : Group → Group) : (s.modGroup a f).ports = s.ports := rfl
@[simp] theorem State.modGroup_tongs (s : State) (a : Nat) (f : Group → Group) : (s.modGroup a f).tongs = s.tongs := rfl
@[simp] theorem State.modGroup_lid (s : State) (a : Nat) (f : Group → Group) : (s.modGroup a f).lid = s.lid := rfl
@[simp] theorem State.modGroup_integ (s : State) (a : Nat) (f : Group → Group) : (s.modGroup a f).integ = s.integ := rfl
@[simp] theorem State.modGroup_power (s : State) (a : Nat) (f : Group → Group) : (s.modGroup a f).power = s.power := rfl
@[simp] theorem State.modGroup_cfg (s : State) (a : Nat) (f : Group → Group) : (s.modGroup a f).cfg = s.cfg := rfl
@[simp] theorem State.modGroup_fw (s : State) (a : Nat) (f : Group → Group) : (s.modGroup a f).fw = s.fw := rfl
@[simp] theorem State.modGroup_side (s : State) (a : Nat) (f : Group → Group) : (s.modGroup a f).side = s.side := rfl
@[simp] theorem State.modGroup_hostReqs (s : State) (a : Nat) (f : Group → Group) : (s.modGroup a f).hostReqs = s.hostReqs := rfl
@[simp] theorem State.modGroup_heldMsgs (s : State) (a : Nat) (f : Group → Group) : (s.modGroup a f).heldMsgs = s.heldMsgs := rfl
@[simp] theorem State.modGroup_core_eq (s : State) (a : Nat) (f : Group → Group) (x : Nat) : (s.modGroup a f).core x = s.core x := rfl
@[simp] theorem State.modGroup_die_eq (s : State) (a : Nat) (f : Group → Group) (x : Nat) : (s.modGroup a f).die x = s.die x := rfl
@[simp] theorem State.modGroup_region_eq (s : State) (a : Nat) (f : Group → Group) (x : Nat) : (s.modGroup a f).region x = s.region x := rfl
@[simp] theorem State.modGroup_port_eq (s : State) (a : Nat) (f : Group → Group) (x : Nat) : (s.modGroup a f).port x = s.port x := rfl
@[simp] theorem State.modGroup_now_eq (s : State) (a : Nat) (f : Group → Group) : (s.modGroup a f).now = s.now := rfl
@[simp] theorem State.modGroup_edge_eq (s : State) (a : Nat) (f : Group → Group) : (s.modGroup a f).edge = s.edge := rfl
@[simp] theorem State.modGroup_pkgIdField_eq (s : State) (a : Nat) (f : Group → Group) : (s.modGroup a f).pkgIdField = s.pkgIdField := rfl
@[simp] theorem State.modCfg_pending (s : State) (f : CfgSt → CfgSt) : (s.modCfg f).pending = s.pending := rfl
@[simp] theorem State.modCfg_freeCtr (s : State) (f : CfgSt → CfgSt) : (s.modCfg f).freeCtr = s.freeCtr := rfl
@[simp] theorem State.modCfg_nextTag (s : State) (f : CfgSt → CfgSt) : (s.modCfg f).nextTag = s.nextTag := rfl
@[simp] theorem State.modCfg_outbox (s : State) (f : CfgSt → CfgSt) : (s.modCfg f).outbox = s.outbox := rfl
@[simp] theorem State.modCfg_beat (s : State) (f : CfgSt → CfgSt) : (s.modCfg f).beat = s.beat := rfl
@[simp] theorem State.modCfg_log (s : State) (f : CfgSt → CfgSt) : (s.modCfg f).log = s.log := rfl
@[simp] theorem State.modCfg_dies (s : State) (f : CfgSt → CfgSt) : (s.modCfg f).dies = s.dies := rfl
@[simp] theorem State.modCfg_links (s : State) (f : CfgSt → CfgSt) : (s.modCfg f).links = s.links := rfl
@[simp] theorem State.modCfg_regions (s : State) (f : CfgSt → CfgSt) : (s.modCfg f).regions = s.regions := rfl
@[simp] theorem State.modCfg_cores (s : State) (f : CfgSt → CfgSt) : (s.modCfg f).cores = s.cores := rfl
@[simp] theorem State.modCfg_ports (s : State) (f : CfgSt → CfgSt) : (s.modCfg f).ports = s.ports := rfl
@[simp] theorem State.modCfg_tongs (s : State) (f : CfgSt → CfgSt) : (s.modCfg f).tongs = s.tongs := rfl
@[simp] theorem State.modCfg_cmd (s : State) (f : CfgSt → CfgSt) : (s.modCfg f).cmd = s.cmd := rfl
@[simp] theorem State.modCfg_lid (s : State) (f : CfgSt → CfgSt) : (s.modCfg f).lid = s.lid := rfl
@[simp] theorem State.modCfg_integ (s : State) (f : CfgSt → CfgSt) : (s.modCfg f).integ = s.integ := rfl
@[simp] theorem State.modCfg_power (s : State) (f : CfgSt → CfgSt) : (s.modCfg f).power = s.power := rfl
@[simp] theorem State.modCfg_fw (s : State) (f : CfgSt → CfgSt) : (s.modCfg f).fw = s.fw := rfl
@[simp] theorem State.modCfg_side (s : State) (f : CfgSt → CfgSt) : (s.modCfg f).side = s.side := rfl
@[simp] theorem State.modCfg_hostReqs (s : State) (f : CfgSt → CfgSt) : (s.modCfg f).hostReqs = s.hostReqs := rfl
@[simp] theorem State.modCfg_heldMsgs (s : State) (f : CfgSt → CfgSt) : (s.modCfg f).heldMsgs = s.heldMsgs := rfl
@[simp] theorem State.modCfg_core_eq (s : State) (f : CfgSt → CfgSt) (x : Nat) : (s.modCfg f).core x = s.core x := rfl
@[simp] theorem State.modCfg_die_eq (s : State) (f : CfgSt → CfgSt) (x : Nat) : (s.modCfg f).die x = s.die x := rfl
@[simp] theorem State.modCfg_region_eq (s : State) (f : CfgSt → CfgSt) (x : Nat) : (s.modCfg f).region x = s.region x := rfl
@[simp] theorem State.modCfg_port_eq (s : State) (f : CfgSt → CfgSt) (x : Nat) : (s.modCfg f).port x = s.port x := rfl
@[simp] theorem State.modCfg_now_eq (s : State) (f : CfgSt → CfgSt) : (s.modCfg f).now = s.now := rfl
@[simp] theorem State.modCfg_edge_eq (s : State) (f : CfgSt → CfgSt) : (s.modCfg f).edge = s.edge := rfl
@[simp] theorem State.modFw_pending (s : State) (f : FwSt → FwSt) : (s.modFw f).pending = s.pending := rfl
@[simp] theorem State.modFw_freeCtr (s : State) (f : FwSt → FwSt) : (s.modFw f).freeCtr = s.freeCtr := rfl
@[simp] theorem State.modFw_nextTag (s : State) (f : FwSt → FwSt) : (s.modFw f).nextTag = s.nextTag := rfl
@[simp] theorem State.modFw_outbox (s : State) (f : FwSt → FwSt) : (s.modFw f).outbox = s.outbox := rfl
@[simp] theorem State.modFw_beat (s : State) (f : FwSt → FwSt) : (s.modFw f).beat = s.beat := rfl
@[simp] theorem State.modFw_log (s : State) (f : FwSt → FwSt) : (s.modFw f).log = s.log := rfl
@[simp] theorem State.modFw_dies (s : State) (f : FwSt → FwSt) : (s.modFw f).dies = s.dies := rfl
@[simp] theorem State.modFw_links (s : State) (f : FwSt → FwSt) : (s.modFw f).links = s.links := rfl
@[simp] theorem State.modFw_regions (s : State) (f : FwSt → FwSt) : (s.modFw f).regions = s.regions := rfl
@[simp] theorem State.modFw_cores (s : State) (f : FwSt → FwSt) : (s.modFw f).cores = s.cores := rfl
@[simp] theorem State.modFw_ports (s : State) (f : FwSt → FwSt) : (s.modFw f).ports = s.ports := rfl
@[simp] theorem State.modFw_tongs (s : State) (f : FwSt → FwSt) : (s.modFw f).tongs = s.tongs := rfl
@[simp] theorem State.modFw_cmd (s : State) (f : FwSt → FwSt) : (s.modFw f).cmd = s.cmd := rfl
@[simp] theorem State.modFw_lid (s : State) (f : FwSt → FwSt) : (s.modFw f).lid = s.lid := rfl
@[simp] theorem State.modFw_integ (s : State) (f : FwSt → FwSt) : (s.modFw f).integ = s.integ := rfl
@[simp] theorem State.modFw_power (s : State) (f : FwSt → FwSt) : (s.modFw f).power = s.power := rfl
@[simp] theorem State.modFw_cfg (s : State) (f : FwSt → FwSt) : (s.modFw f).cfg = s.cfg := rfl
@[simp] theorem State.modFw_side (s : State) (f : FwSt → FwSt) : (s.modFw f).side = s.side := rfl
@[simp] theorem State.modFw_hostReqs (s : State) (f : FwSt → FwSt) : (s.modFw f).hostReqs = s.hostReqs := rfl
@[simp] theorem State.modFw_heldMsgs (s : State) (f : FwSt → FwSt) : (s.modFw f).heldMsgs = s.heldMsgs := rfl
@[simp] theorem State.modFw_core_eq (s : State) (f : FwSt → FwSt) (x : Nat) : (s.modFw f).core x = s.core x := rfl
@[simp] theorem State.modFw_die_eq (s : State) (f : FwSt → FwSt) (x : Nat) : (s.modFw f).die x = s.die x := rfl
@[simp] theorem State.modFw_region_eq (s : State) (f : FwSt → FwSt) (x : Nat) : (s.modFw f).region x = s.region x := rfl
@[simp] theorem State.modFw_port_eq (s : State) (f : FwSt → FwSt) (x : Nat) : (s.modFw f).port x = s.port x := rfl
@[simp] theorem State.modFw_now_eq (s : State) (f : FwSt → FwSt) : (s.modFw f).now = s.now := rfl
@[simp] theorem State.modFw_edge_eq (s : State) (f : FwSt → FwSt) : (s.modFw f).edge = s.edge := rfl
@[simp] theorem State.modFw_pkgIdField_eq (s : State) (f : FwSt → FwSt) : (s.modFw f).pkgIdField = s.pkgIdField := rfl
@[simp] theorem State.modLp_pending (s : State) (p : Nat) (f : LidPart → LidPart) : (s.modLp p f).pending = s.pending := rfl
@[simp] theorem State.modLp_freeCtr (s : State) (p : Nat) (f : LidPart → LidPart) : (s.modLp p f).freeCtr = s.freeCtr := rfl
@[simp] theorem State.modLp_nextTag (s : State) (p : Nat) (f : LidPart → LidPart) : (s.modLp p f).nextTag = s.nextTag := rfl
@[simp] theorem State.modLp_outbox (s : State) (p : Nat) (f : LidPart → LidPart) : (s.modLp p f).outbox = s.outbox := rfl
@[simp] theorem State.modLp_beat (s : State) (p : Nat) (f : LidPart → LidPart) : (s.modLp p f).beat = s.beat := rfl
@[simp] theorem State.modLp_log (s : State) (p : Nat) (f : LidPart → LidPart) : (s.modLp p f).log = s.log := rfl
@[simp] theorem State.modLp_dies (s : State) (p : Nat) (f : LidPart → LidPart) : (s.modLp p f).dies = s.dies := rfl
@[simp] theorem State.modLp_links (s : State) (p : Nat) (f : LidPart → LidPart) : (s.modLp p f).links = s.links := rfl
@[simp] theorem State.modLp_regions (s : State) (p : Nat) (f : LidPart → LidPart) : (s.modLp p f).regions = s.regions := rfl
@[simp] theorem State.modLp_cores (s : State) (p : Nat) (f : LidPart → LidPart) : (s.modLp p f).cores = s.cores := rfl
@[simp] theorem State.modLp_ports (s : State) (p : Nat) (f : LidPart → LidPart) : (s.modLp p f).ports = s.ports := rfl
@[simp] theorem State.modLp_tongs (s : State) (p : Nat) (f : LidPart → LidPart) : (s.modLp p f).tongs = s.tongs := rfl
@[simp] theorem State.modLp_cmd (s : State) (p : Nat) (f : LidPart → LidPart) : (s.modLp p f).cmd = s.cmd := rfl
@[simp] theorem State.modLp_integ (s : State) (p : Nat) (f : LidPart → LidPart) : (s.modLp p f).integ = s.integ := rfl
@[simp] theorem State.modLp_power (s : State) (p : Nat) (f : LidPart → LidPart) : (s.modLp p f).power = s.power := rfl
@[simp] theorem State.modLp_cfg (s : State) (p : Nat) (f : LidPart → LidPart) : (s.modLp p f).cfg = s.cfg := rfl
@[simp] theorem State.modLp_fw (s : State) (p : Nat) (f : LidPart → LidPart) : (s.modLp p f).fw = s.fw := rfl
@[simp] theorem State.modLp_side (s : State) (p : Nat) (f : LidPart → LidPart) : (s.modLp p f).side = s.side := rfl
@[simp] theorem State.modLp_hostReqs (s : State) (p : Nat) (f : LidPart → LidPart) : (s.modLp p f).hostReqs = s.hostReqs := rfl
@[simp] theorem State.modLp_heldMsgs (s : State) (p : Nat) (f : LidPart → LidPart) : (s.modLp p f).heldMsgs = s.heldMsgs := rfl
@[simp] theorem State.modLp_core_eq (s : State) (p : Nat) (f : LidPart → LidPart) (x : Nat) : (s.modLp p f).core x = s.core x := rfl
@[simp] theorem State.modLp_die_eq (s : State) (p : Nat) (f : LidPart → LidPart) (x : Nat) : (s.modLp p f).die x = s.die x := rfl
@[simp] theorem State.modLp_region_eq (s : State) (p : Nat) (f : LidPart → LidPart) (x : Nat) : (s.modLp p f).region x = s.region x := rfl
@[simp] theorem State.modLp_port_eq (s : State) (p : Nat) (f : LidPart → LidPart) (x : Nat) : (s.modLp p f).port x = s.port x := rfl
@[simp] theorem State.modLp_now_eq (s : State) (p : Nat) (f : LidPart → LidPart) : (s.modLp p f).now = s.now := rfl
@[simp] theorem State.modLp_edge_eq (s : State) (p : Nat) (f : LidPart → LidPart) : (s.modLp p f).edge = s.edge := rfl
@[simp] theorem State.modLp_pkgIdField_eq (s : State) (p : Nat) (f : LidPart → LidPart) : (s.modLp p f).pkgIdField = s.pkgIdField := rfl
@[simp] theorem State.modPart_pending (s : State) (p : Nat) (f : Part → Part) : (s.modPart p f).pending = s.pending := rfl
@[simp] theorem State.modPart_freeCtr (s : State) (p : Nat) (f : Part → Part) : (s.modPart p f).freeCtr = s.freeCtr := rfl
@[simp] theorem State.modPart_nextTag (s : State) (p : Nat) (f : Part → Part) : (s.modPart p f).nextTag = s.nextTag := rfl
@[simp] theorem State.modPart_outbox (s : State) (p : Nat) (f : Part → Part) : (s.modPart p f).outbox = s.outbox := rfl
@[simp] theorem State.modPart_beat (s : State) (p : Nat) (f : Part → Part) : (s.modPart p f).beat = s.beat := rfl
@[simp] theorem State.modPart_log (s : State) (p : Nat) (f : Part → Part) : (s.modPart p f).log = s.log := rfl
@[simp] theorem State.modPart_dies (s : State) (p : Nat) (f : Part → Part) : (s.modPart p f).dies = s.dies := rfl
@[simp] theorem State.modPart_links (s : State) (p : Nat) (f : Part → Part) : (s.modPart p f).links = s.links := rfl
@[simp] theorem State.modPart_regions (s : State) (p : Nat) (f : Part → Part) : (s.modPart p f).regions = s.regions := rfl
@[simp] theorem State.modPart_cores (s : State) (p : Nat) (f : Part → Part) : (s.modPart p f).cores = s.cores := rfl
@[simp] theorem State.modPart_ports (s : State) (p : Nat) (f : Part → Part) : (s.modPart p f).ports = s.ports := rfl
@[simp] theorem State.modPart_tongs (s : State) (p : Nat) (f : Part → Part) : (s.modPart p f).tongs = s.tongs := rfl
@[simp] theorem State.modPart_lid (s : State) (p : Nat) (f : Part → Part) : (s.modPart p f).lid = s.lid := rfl
@[simp] theorem State.modPart_integ (s : State) (p : Nat) (f : Part → Part) : (s.modPart p f).integ = s.integ := rfl
@[simp] theorem State.modPart_power (s : State) (p : Nat) (f : Part → Part) : (s.modPart p f).power = s.power := rfl
@[simp] theorem State.modPart_cfg (s : State) (p : Nat) (f : Part → Part) : (s.modPart p f).cfg = s.cfg := rfl
@[simp] theorem State.modPart_fw (s : State) (p : Nat) (f : Part → Part) : (s.modPart p f).fw = s.fw := rfl
@[simp] theorem State.modPart_side (s : State) (p : Nat) (f : Part → Part) : (s.modPart p f).side = s.side := rfl
@[simp] theorem State.modPart_hostReqs (s : State) (p : Nat) (f : Part → Part) : (s.modPart p f).hostReqs = s.hostReqs := rfl
@[simp] theorem State.modPart_heldMsgs (s : State) (p : Nat) (f : Part → Part) : (s.modPart p f).heldMsgs = s.heldMsgs := rfl
@[simp] theorem State.modPart_core_eq (s : State) (p : Nat) (f : Part → Part) (x : Nat) : (s.modPart p f).core x = s.core x := rfl
@[simp] theorem State.modPart_die_eq (s : State) (p : Nat) (f : Part → Part) (x : Nat) : (s.modPart p f).die x = s.die x := rfl
@[simp] theorem State.modPart_region_eq (s : State) (p : Nat) (f : Part → Part) (x : Nat) : (s.modPart p f).region x = s.region x := rfl
@[simp] theorem State.modPart_port_eq (s : State) (p : Nat) (f : Part → Part) (x : Nat) : (s.modPart p f).port x = s.port x := rfl
@[simp] theorem State.modPart_now_eq (s : State) (p : Nat) (f : Part → Part) : (s.modPart p f).now = s.now := rfl
@[simp] theorem State.modPart_edge_eq (s : State) (p : Nat) (f : Part → Part) : (s.modPart p f).edge = s.edge := rfl
@[simp] theorem State.modPart_pkgIdField_eq (s : State) (p : Nat) (f : Part → Part) : (s.modPart p f).pkgIdField = s.pkgIdField := rfl
@[simp] theorem State.modRail_pending (s : State) (r : Nat) (f : Rail → Rail) : (s.modRail r f).pending = s.pending := rfl
@[simp] theorem State.modRail_freeCtr (s : State) (r : Nat) (f : Rail → Rail) : (s.modRail r f).freeCtr = s.freeCtr := rfl
@[simp] theorem State.modRail_nextTag (s : State) (r : Nat) (f : Rail → Rail) : (s.modRail r f).nextTag = s.nextTag := rfl
@[simp] theorem State.modRail_outbox (s : State) (r : Nat) (f : Rail → Rail) : (s.modRail r f).outbox = s.outbox := rfl
@[simp] theorem State.modRail_beat (s : State) (r : Nat) (f : Rail → Rail) : (s.modRail r f).beat = s.beat := rfl
@[simp] theorem State.modRail_log (s : State) (r : Nat) (f : Rail → Rail) : (s.modRail r f).log = s.log := rfl
@[simp] theorem State.modRail_dies (s : State) (r : Nat) (f : Rail → Rail) : (s.modRail r f).dies = s.dies := rfl
@[simp] theorem State.modRail_links (s : State) (r : Nat) (f : Rail → Rail) : (s.modRail r f).links = s.links := rfl
@[simp] theorem State.modRail_regions (s : State) (r : Nat) (f : Rail → Rail) : (s.modRail r f).regions = s.regions := rfl
@[simp] theorem State.modRail_cores (s : State) (r : Nat) (f : Rail → Rail) : (s.modRail r f).cores = s.cores := rfl
@[simp] theorem State.modRail_ports (s : State) (r : Nat) (f : Rail → Rail) : (s.modRail r f).ports = s.ports := rfl
@[simp] theorem State.modRail_tongs (s : State) (r : Nat) (f : Rail → Rail) : (s.modRail r f).tongs = s.tongs := rfl
@[simp] theorem State.modRail_cmd (s : State) (r : Nat) (f : Rail → Rail) : (s.modRail r f).cmd = s.cmd := rfl
@[simp] theorem State.modRail_lid (s : State) (r : Nat) (f : Rail → Rail) : (s.modRail r f).lid = s.lid := rfl
@[simp] theorem State.modRail_integ (s : State) (r : Nat) (f : Rail → Rail) : (s.modRail r f).integ = s.integ := rfl
@[simp] theorem State.modRail_cfg (s : State) (r : Nat) (f : Rail → Rail) : (s.modRail r f).cfg = s.cfg := rfl
@[simp] theorem State.modRail_fw (s : State) (r : Nat) (f : Rail → Rail) : (s.modRail r f).fw = s.fw := rfl
@[simp] theorem State.modRail_side (s : State) (r : Nat) (f : Rail → Rail) : (s.modRail r f).side = s.side := rfl
@[simp] theorem State.modRail_hostReqs (s : State) (r : Nat) (f : Rail → Rail) : (s.modRail r f).hostReqs = s.hostReqs := rfl
@[simp] theorem State.modRail_heldMsgs (s : State) (r : Nat) (f : Rail → Rail) : (s.modRail r f).heldMsgs = s.heldMsgs := rfl
@[simp] theorem State.modRail_core_eq (s : State) (r : Nat) (f : Rail → Rail) (x : Nat) : (s.modRail r f).core x = s.core x := rfl
@[simp] theorem State.modRail_die_eq (s : State) (r : Nat) (f : Rail → Rail) (x : Nat) : (s.modRail r f).die x = s.die x := rfl
@[simp] theorem State.modRail_region_eq (s : State) (r : Nat) (f : Rail → Rail) (x : Nat) : (s.modRail r f).region x = s.region x := rfl
@[simp] theorem State.modRail_port_eq (s : State) (r : Nat) (f : Rail → Rail) (x : Nat) : (s.modRail r f).port x = s.port x := rfl
@[simp] theorem State.modRail_now_eq (s : State) (r : Nat) (f : Rail → Rail) : (s.modRail r f).now = s.now := rfl
@[simp] theorem State.modRail_edge_eq (s : State) (r : Nat) (f : Rail → Rail) : (s.modRail r f).edge = s.edge := rfl
@[simp] theorem State.modRail_pkgIdField_eq (s : State) (r : Nat) (f : Rail → Rail) : (s.modRail r f).pkgIdField = s.pkgIdField := rfl
@[simp] theorem State.modObj_pending (s : State) (i : Nat) (f : Obj → Obj) : (s.modObj i f).pending = s.pending := rfl
@[simp] theorem State.modObj_freeCtr (s : State) (i : Nat) (f : Obj → Obj) : (s.modObj i f).freeCtr = s.freeCtr := rfl
@[simp] theorem State.modObj_nextTag (s : State) (i : Nat) (f : Obj → Obj) : (s.modObj i f).nextTag = s.nextTag := rfl
@[simp] theorem State.modObj_outbox (s : State) (i : Nat) (f : Obj → Obj) : (s.modObj i f).outbox = s.outbox := rfl
@[simp] theorem State.modObj_beat (s : State) (i : Nat) (f : Obj → Obj) : (s.modObj i f).beat = s.beat := rfl
@[simp] theorem State.modObj_log (s : State) (i : Nat) (f : Obj → Obj) : (s.modObj i f).log = s.log := rfl
@[simp] theorem State.modObj_dies (s : State) (i : Nat) (f : Obj → Obj) : (s.modObj i f).dies = s.dies := rfl
@[simp] theorem State.modObj_links (s : State) (i : Nat) (f : Obj → Obj) : (s.modObj i f).links = s.links := rfl
@[simp] theorem State.modObj_regions (s : State) (i : Nat) (f : Obj → Obj) : (s.modObj i f).regions = s.regions := rfl
@[simp] theorem State.modObj_cores (s : State) (i : Nat) (f : Obj → Obj) : (s.modObj i f).cores = s.cores := rfl
@[simp] theorem State.modObj_ports (s : State) (i : Nat) (f : Obj → Obj) : (s.modObj i f).ports = s.ports := rfl
@[simp] theorem State.modObj_cmd (s : State) (i : Nat) (f : Obj → Obj) : (s.modObj i f).cmd = s.cmd := rfl
@[simp] theorem State.modObj_lid (s : State) (i : Nat) (f : Obj → Obj) : (s.modObj i f).lid = s.lid := rfl
@[simp] theorem State.modObj_integ (s : State) (i : Nat) (f : Obj → Obj) : (s.modObj i f).integ = s.integ := rfl
@[simp] theorem State.modObj_power (s : State) (i : Nat) (f : Obj → Obj) : (s.modObj i f).power = s.power := rfl
@[simp] theorem State.modObj_cfg (s : State) (i : Nat) (f : Obj → Obj) : (s.modObj i f).cfg = s.cfg := rfl
@[simp] theorem State.modObj_fw (s : State) (i : Nat) (f : Obj → Obj) : (s.modObj i f).fw = s.fw := rfl
@[simp] theorem State.modObj_side (s : State) (i : Nat) (f : Obj → Obj) : (s.modObj i f).side = s.side := rfl
@[simp] theorem State.modObj_hostReqs (s : State) (i : Nat) (f : Obj → Obj) : (s.modObj i f).hostReqs = s.hostReqs := rfl
@[simp] theorem State.modObj_heldMsgs (s : State) (i : Nat) (f : Obj → Obj) : (s.modObj i f).heldMsgs = s.heldMsgs := rfl
@[simp] theorem State.modObj_core_eq (s : State) (i : Nat) (f : Obj → Obj) (x : Nat) : (s.modObj i f).core x = s.core x := rfl
@[simp] theorem State.modObj_die_eq (s : State) (i : Nat) (f : Obj → Obj) (x : Nat) : (s.modObj i f).die x = s.die x := rfl
@[simp] theorem State.modObj_region_eq (s : State) (i : Nat) (f : Obj → Obj) (x : Nat) : (s.modObj i f).region x = s.region x := rfl
@[simp] theorem State.modObj_port_eq (s : State) (i : Nat) (f : Obj → Obj) (x : Nat) : (s.modObj i f).port x = s.port x := rfl
@[simp] theorem State.modObj_now_eq (s : State) (i : Nat) (f : Obj → Obj) : (s.modObj i f).now = s.now := rfl
@[simp] theorem State.modObj_edge_eq (s : State) (i : Nat) (f : Obj → Obj) : (s.modObj i f).edge = s.edge := rfl
@[simp] theorem State.modObj_pkgIdField_eq (s : State) (i : Nat) (f : Obj → Obj) : (s.modObj i f).pkgIdField = s.pkgIdField := rfl

end Sys2Proof.Machine
end

