-- ==== Sys2Proof/Laws/State.lean ====
section
/-!
SUPPORT. What each named update of the state does to each field, one lemma per field per update, and the whole effect
of the operations that send, log and count: what they change, and that they change nothing else.
-/

namespace Sys2Proof.Machine

open Sys2Proof

/-! ## Fields after an update -/

@[simp] theorem State.setCore_pending (s : State) (n : Nat) (c : CoreSt) : (s.setCore n c).pending = s.pending := rfl
@[simp] theorem State.setCore_freeCtr (s : State) (n : Nat) (c : CoreSt) : (s.setCore n c).freeCtr = s.freeCtr := rfl
@[simp] theorem State.setCore_nextTag (s : State) (n : Nat) (c : CoreSt) : (s.setCore n c).nextTag = s.nextTag := rfl
@[simp] theorem State.setCore_outbox (s : State) (n : Nat) (c : CoreSt) : (s.setCore n c).outbox = s.outbox := rfl
@[simp] theorem State.setCore_beat (s : State) (n : Nat) (c : CoreSt) : (s.setCore n c).beat = s.beat := rfl
@[simp] theorem State.setCore_log (s : State) (n : Nat) (c : CoreSt) : (s.setCore n c).log = s.log := rfl
@[simp] theorem State.setCore_dies (s : State) (n : Nat) (c : CoreSt) : (s.setCore n c).dies = s.dies := rfl
@[simp] theorem State.setCore_links (s : State) (n : Nat) (c : CoreSt) : (s.setCore n c).links = s.links := rfl
@[simp] theorem State.setCore_regions (s : State) (n : Nat) (c : CoreSt) : (s.setCore n c).regions = s.regions := rfl
@[simp] theorem State.setCore_cores (s : State) (n : Nat) (c : CoreSt) : (s.setCore n c).cores = vset s.cores n c := rfl
@[simp] theorem State.setCore_ports (s : State) (n : Nat) (c : CoreSt) : (s.setCore n c).ports = s.ports := rfl
@[simp] theorem State.setCore_tongs (s : State) (n : Nat) (c : CoreSt) : (s.setCore n c).tongs = s.tongs := rfl
@[simp] theorem State.setCore_cmd (s : State) (n : Nat) (c : CoreSt) : (s.setCore n c).cmd = s.cmd := rfl
@[simp] theorem State.setCore_lid (s : State) (n : Nat) (c : CoreSt) : (s.setCore n c).lid = s.lid := rfl
@[simp] theorem State.setCore_integ (s : State) (n : Nat) (c : CoreSt) : (s.setCore n c).integ = s.integ := rfl
@[simp] theorem State.setCore_power (s : State) (n : Nat) (c : CoreSt) : (s.setCore n c).power = s.power := rfl
@[simp] theorem State.setCore_cfg (s : State) (n : Nat) (c : CoreSt) : (s.setCore n c).cfg = s.cfg := rfl
@[simp] theorem State.setCore_fw (s : State) (n : Nat) (c : CoreSt) : (s.setCore n c).fw = s.fw := rfl
@[simp] theorem State.setCore_side (s : State) (n : Nat) (c : CoreSt) : (s.setCore n c).side = s.side := rfl
@[simp] theorem State.setCore_hostReqs (s : State) (n : Nat) (c : CoreSt) : (s.setCore n c).hostReqs = s.hostReqs := rfl
@[simp] theorem State.setCore_heldMsgs (s : State) (n : Nat) (c : CoreSt) : (s.setCore n c).heldMsgs = s.heldMsgs := rfl
@[simp] theorem State.modCore_pending (s : State) (n : Nat) (f : CoreSt → CoreSt) : (s.modCore n f).pending = s.pending := rfl
@[simp] theorem State.modCore_freeCtr (s : State) (n : Nat) (f : CoreSt → CoreSt) : (s.modCore n f).freeCtr = s.freeCtr := rfl
@[simp] theorem State.modCore_nextTag (s : State) (n : Nat) (f : CoreSt → CoreSt) : (s.modCore n f).nextTag = s.nextTag := rfl
@[simp] theorem State.modCore_outbox (s : State) (n : Nat) (f : CoreSt → CoreSt) : (s.modCore n f).outbox = s.outbox := rfl
@[simp] theorem State.modCore_beat (s : State) (n : Nat) (f : CoreSt → CoreSt) : (s.modCore n f).beat = s.beat := rfl
@[simp] theorem State.modCore_log (s : State) (n : Nat) (f : CoreSt → CoreSt) : (s.modCore n f).log = s.log := rfl
@[simp] theorem State.modCore_dies (s : State) (n : Nat) (f : CoreSt → CoreSt) : (s.modCore n f).dies = s.dies := rfl
@[simp] theorem State.modCore_links (s : State) (n : Nat) (f : CoreSt → CoreSt) : (s.modCore n f).links = s.links := rfl
@[simp] theorem State.modCore_regions (s : State) (n : Nat) (f : CoreSt → CoreSt) : (s.modCore n f).regions = s.regions := rfl
@[simp] theorem State.modCore_cores (s : State) (n : Nat) (f : CoreSt → CoreSt) : (s.modCore n f).cores = vset s.cores n (f (s.core n)) := rfl
@[simp] theorem State.modCore_ports (s : State) (n : Nat) (f : CoreSt → CoreSt) : (s.modCore n f).ports = s.ports := rfl
@[simp] theorem State.modCore_tongs (s : State) (n : Nat) (f : CoreSt → CoreSt) : (s.modCore n f).tongs = s.tongs := rfl
@[simp] theorem State.modCore_cmd (s : State) (n : Nat) (f : CoreSt → CoreSt) : (s.modCore n f).cmd = s.cmd := rfl
@[simp] theorem State.modCore_lid (s : State) (n : Nat) (f : CoreSt → CoreSt) : (s.modCore n f).lid = s.lid := rfl
@[simp] theorem State.modCore_integ (s : State) (n : Nat) (f : CoreSt → CoreSt) : (s.modCore n f).integ = s.integ := rfl
@[simp] theorem State.modCore_power (s : State) (n : Nat) (f : CoreSt → CoreSt) : (s.modCore n f).power = s.power := rfl
@[simp] theorem State.modCore_cfg (s : State) (n : Nat) (f : CoreSt → CoreSt) : (s.modCore n f).cfg = s.cfg := rfl
@[simp] theorem State.modCore_fw (s : State) (n : Nat) (f : CoreSt → CoreSt) : (s.modCore n f).fw = s.fw := rfl
@[simp] theorem State.modCore_side (s : State) (n : Nat) (f : CoreSt → CoreSt) : (s.modCore n f).side = s.side := rfl
@[simp] theorem State.modCore_hostReqs (s : State) (n : Nat) (f : CoreSt → CoreSt) : (s.modCore n f).hostReqs = s.hostReqs := rfl
@[simp] theorem State.modCore_heldMsgs (s : State) (n : Nat) (f : CoreSt → CoreSt) : (s.modCore n f).heldMsgs = s.heldMsgs := rfl
@[simp] theorem State.modDie_pending (s : State) (d : Nat) (f : DieSt → DieSt) : (s.modDie d f).pending = s.pending := rfl
@[simp] theorem State.modDie_freeCtr (s : State) (d : Nat) (f : DieSt → DieSt) : (s.modDie d f).freeCtr = s.freeCtr := rfl
@[simp] theorem State.modDie_nextTag (s : State) (d : Nat) (f : DieSt → DieSt) : (s.modDie d f).nextTag = s.nextTag := rfl
@[simp] theorem State.modDie_outbox (s : State) (d : Nat) (f : DieSt → DieSt) : (s.modDie d f).outbox = s.outbox := rfl
@[simp] theorem State.modDie_beat (s : State) (d : Nat) (f : DieSt → DieSt) : (s.modDie d f).beat = s.beat := rfl
@[simp] theorem State.modDie_log (s : State) (d : Nat) (f : DieSt → DieSt) : (s.modDie d f).log = s.log := rfl
@[simp] theorem State.modDie_dies (s : State) (d : Nat) (f : DieSt → DieSt) : (s.modDie d f).dies = vmod s.dies d f := rfl
@[simp] theorem State.modDie_links (s : State) (d : Nat) (f : DieSt → DieSt) : (s.modDie d f).links = s.links := rfl
@[simp] theorem State.modDie_regions (s : State) (d : Nat) (f : DieSt → DieSt) : (s.modDie d f).regions = s.regions := rfl
@[simp] theorem State.modDie_cores (s : State) (d : Nat) (f : DieSt → DieSt) : (s.modDie d f).cores = s.cores := rfl
@[simp] theorem State.modDie_ports (s : State) (d : Nat) (f : DieSt → DieSt) : (s.modDie d f).ports = s.ports := rfl
@[simp] theorem State.modDie_tongs (s : State) (d : Nat) (f : DieSt → DieSt) : (s.modDie d f).tongs = s.tongs := rfl
@[simp] theorem State.modDie_cmd (s : State) (d : Nat) (f : DieSt → DieSt) : (s.modDie d f).cmd = s.cmd := rfl
@[simp] theorem State.modDie_lid (s : State) (d : Nat) (f : DieSt → DieSt) : (s.modDie d f).lid = s.lid := rfl
@[simp] theorem State.modDie_integ (s : State) (d : Nat) (f : DieSt → DieSt) : (s.modDie d f).integ = s.integ := rfl
@[simp] theorem State.modDie_power (s : State) (d : Nat) (f : DieSt → DieSt) : (s.modDie d f).power = s.power := rfl
@[simp] theorem State.modDie_cfg (s : State) (d : Nat) (f : DieSt → DieSt) : (s.modDie d f).cfg = s.cfg := rfl
@[simp] theorem State.modDie_fw (s : State) (d : Nat) (f : DieSt → DieSt) : (s.modDie d f).fw = s.fw := rfl
@[simp] theorem State.modDie_side (s : State) (d : Nat) (f : DieSt → DieSt) : (s.modDie d f).side = s.side := rfl
@[simp] theorem State.modDie_hostReqs (s : State) (d : Nat) (f : DieSt → DieSt) : (s.modDie d f).hostReqs = s.hostReqs := rfl
@[simp] theorem State.modDie_heldMsgs (s : State) (d : Nat) (f : DieSt → DieSt) : (s.modDie d f).heldMsgs = s.heldMsgs := rfl
@[simp] theorem State.modRegion_pending (s : State) (r : Nat) (f : Region → Region) : (s.modRegion r f).pending = s.pending := rfl
@[simp] theorem State.modRegion_freeCtr (s : State) (r : Nat) (f : Region → Region) : (s.modRegion r f).freeCtr = s.freeCtr := rfl
@[simp] theorem State.modRegion_nextTag (s : State) (r : Nat) (f : Region → Region) : (s.modRegion r f).nextTag = s.nextTag := rfl
@[simp] theorem State.modRegion_outbox (s : State) (r : Nat) (f : Region → Region) : (s.modRegion r f).outbox = s.outbox := rfl
@[simp] theorem State.modRegion_beat (s : State) (r : Nat) (f : Region → Region) : (s.modRegion r f).beat = s.beat := rfl
@[simp] theorem State.modRegion_log (s : State) (r : Nat) (f : Region → Region) : (s.modRegion r f).log = s.log := rfl
@[simp] theorem State.modRegion_dies (s : State) (r : Nat) (f : Region → Region) : (s.modRegion r f).dies = s.dies := rfl
@[simp] theorem State.modRegion_links (s : State) (r : Nat) (f : Region → Region) : (s.modRegion r f).links = s.links := rfl
@[simp] theorem State.modRegion_regions (s : State) (r : Nat) (f : Region → Region) : (s.modRegion r f).regions = vmod s.regions r f := rfl
@[simp] theorem State.modRegion_cores (s : State) (r : Nat) (f : Region → Region) : (s.modRegion r f).cores = s.cores := rfl
@[simp] theorem State.modRegion_ports (s : State) (r : Nat) (f : Region → Region) : (s.modRegion r f).ports = s.ports := rfl
@[simp] theorem State.modRegion_tongs (s : State) (r : Nat) (f : Region → Region) : (s.modRegion r f).tongs = s.tongs := rfl
@[simp] theorem State.modRegion_cmd (s : State) (r : Nat) (f : Region → Region) : (s.modRegion r f).cmd = s.cmd := rfl
@[simp] theorem State.modRegion_lid (s : State) (r : Nat) (f : Region → Region) : (s.modRegion r f).lid = s.lid := rfl
@[simp] theorem State.modRegion_integ (s : State) (r : Nat) (f : Region → Region) : (s.modRegion r f).integ = s.integ := rfl
@[simp] theorem State.modRegion_power (s : State) (r : Nat) (f : Region → Region) : (s.modRegion r f).power = s.power := rfl
@[simp] theorem State.modRegion_cfg (s : State) (r : Nat) (f : Region → Region) : (s.modRegion r f).cfg = s.cfg := rfl
@[simp] theorem State.modRegion_fw (s : State) (r : Nat) (f : Region → Region) : (s.modRegion r f).fw = s.fw := rfl
@[simp] theorem State.modRegion_side (s : State) (r : Nat) (f : Region → Region) : (s.modRegion r f).side = s.side := rfl
@[simp] theorem State.modRegion_hostReqs (s : State) (r : Nat) (f : Region → Region) : (s.modRegion r f).hostReqs = s.hostReqs := rfl
@[simp] theorem State.modRegion_heldMsgs (s : State) (r : Nat) (f : Region → Region) : (s.modRegion r f).heldMsgs = s.heldMsgs := rfl
@[simp] theorem State.modPort_pending (s : State) (p : Nat) (f : Port → Port) : (s.modPort p f).pending = s.pending := rfl
@[simp] theorem State.modPort_freeCtr (s : State) (p : Nat) (f : Port → Port) : (s.modPort p f).freeCtr = s.freeCtr := rfl
@[simp] theorem State.modPort_nextTag (s : State) (p : Nat) (f : Port → Port) : (s.modPort p f).nextTag = s.nextTag := rfl
@[simp] theorem State.modPort_outbox (s : State) (p : Nat) (f : Port → Port) : (s.modPort p f).outbox = s.outbox := rfl
@[simp] theorem State.modPort_beat (s : State) (p : Nat) (f : Port → Port) : (s.modPort p f).beat = s.beat := rfl
@[simp] theorem State.modPort_log (s : State) (p : Nat) (f : Port → Port) : (s.modPort p f).log = s.log := rfl
@[simp] theorem State.modPort_dies (s : State) (p : Nat) (f : Port → Port) : (s.modPort p f).dies = s.dies := rfl
@[simp] theorem State.modPort_links (s : State) (p : Nat) (f : Port → Port) : (s.modPort p f).links = s.links := rfl
@[simp] theorem State.modPort_regions (s : State) (p : Nat) (f : Port → Port) : (s.modPort p f).regions = s.regions := rfl
@[simp] theorem State.modPort_cores (s : State) (p : Nat) (f : Port → Port) : (s.modPort p f).cores = s.cores := rfl
@[simp] theorem State.modPort_ports (s : State) (p : Nat) (f : Port → Port) : (s.modPort p f).ports = vmod s.ports p f := rfl
@[simp] theorem State.modPort_tongs (s : State) (p : Nat) (f : Port → Port) : (s.modPort p f).tongs = s.tongs := rfl
@[simp] theorem State.modPort_cmd (s : State) (p : Nat) (f : Port → Port) : (s.modPort p f).cmd = s.cmd := rfl
@[simp] theorem State.modPort_lid (s : State) (p : Nat) (f : Port → Port) : (s.modPort p f).lid = s.lid := rfl
@[simp] theorem State.modPort_integ (s : State) (p : Nat) (f : Port → Port) : (s.modPort p f).integ = s.integ := rfl
@[simp] theorem State.modPort_power (s : State) (p : Nat) (f : Port → Port) : (s.modPort p f).power = s.power := rfl
@[simp] theorem State.modPort_cfg (s : State) (p : Nat) (f : Port → Port) : (s.modPort p f).cfg = s.cfg := rfl
@[simp] theorem State.modPort_fw (s : State) (p : Nat) (f : Port → Port) : (s.modPort p f).fw = s.fw := rfl
@[simp] theorem State.modPort_side (s : State) (p : Nat) (f : Port → Port) : (s.modPort p f).side = s.side := rfl
@[simp] theorem State.modPort_hostReqs (s : State) (p : Nat) (f : Port → Port) : (s.modPort p f).hostReqs = s.hostReqs := rfl
@[simp] theorem State.modPort_heldMsgs (s : State) (p : Nat) (f : Port → Port) : (s.modPort p f).heldMsgs = s.heldMsgs := rfl
@[simp] theorem State.modLink_pending (s : State) (l : Nat) (f : D2D → D2D) : (s.modLink l f).pending = s.pending := rfl
@[simp] theorem State.modLink_freeCtr (s : State) (l : Nat) (f : D2D → D2D) : (s.modLink l f).freeCtr = s.freeCtr := rfl
@[simp] theorem State.modLink_nextTag (s : State) (l : Nat) (f : D2D → D2D) : (s.modLink l f).nextTag = s.nextTag := rfl
@[simp] theorem State.modLink_outbox (s : State) (l : Nat) (f : D2D → D2D) : (s.modLink l f).outbox = s.outbox := rfl
@[simp] theorem State.modLink_beat (s : State) (l : Nat) (f : D2D → D2D) : (s.modLink l f).beat = s.beat := rfl
@[simp] theorem State.modLink_log (s : State) (l : Nat) (f : D2D → D2D) : (s.modLink l f).log = s.log := rfl
@[simp] theorem State.modLink_dies (s : State) (l : Nat) (f : D2D → D2D) : (s.modLink l f).dies = s.dies := rfl
@[simp] theorem State.modLink_links (s : State) (l : Nat) (f : D2D → D2D) : (s.modLink l f).links = vmod s.links l f := rfl
@[simp] theorem State.modLink_regions (s : State) (l : Nat) (f : D2D → D2D) : (s.modLink l f).regions = s.regions := rfl
@[simp] theorem State.modLink_cores (s : State) (l : Nat) (f : D2D → D2D) : (s.modLink l f).cores = s.cores := rfl
@[simp] theorem State.modLink_ports (s : State) (l : Nat) (f : D2D → D2D) : (s.modLink l f).ports = s.ports := rfl
@[simp] theorem State.modLink_tongs (s : State) (l : Nat) (f : D2D → D2D) : (s.modLink l f).tongs = s.tongs := rfl
@[simp] theorem State.modLink_cmd (s : State) (l : Nat) (f : D2D → D2D) : (s.modLink l f).cmd = s.cmd := rfl
@[simp] theorem State.modLink_lid (s : State) (l : Nat) (f : D2D → D2D) : (s.modLink l f).lid = s.lid := rfl
@[simp] theorem State.modLink_integ (s : State) (l : Nat) (f : D2D → D2D) : (s.modLink l f).integ = s.integ := rfl
@[simp] theorem State.modLink_power (s : State) (l : Nat) (f : D2D → D2D) : (s.modLink l f).power = s.power := rfl
@[simp] theorem State.modLink_cfg (s : State) (l : Nat) (f : D2D → D2D) : (s.modLink l f).cfg = s.cfg := rfl
@[simp] theorem State.modLink_fw (s : State) (l : Nat) (f : D2D → D2D) : (s.modLink l f).fw = s.fw := rfl
@[simp] theorem State.modLink_side (s : State) (l : Nat) (f : D2D → D2D) : (s.modLink l f).side = s.side := rfl
@[simp] theorem State.modLink_hostReqs (s : State) (l : Nat) (f : D2D → D2D) : (s.modLink l f).hostReqs = s.hostReqs := rfl
@[simp] theorem State.modLink_heldMsgs (s : State) (l : Nat) (f : D2D → D2D) : (s.modLink l f).heldMsgs = s.heldMsgs := rfl
@[simp] theorem State.modBeat_pending (s : State) (f : BeatSt → BeatSt) : (s.modBeat f).pending = s.pending := rfl
@[simp] theorem State.modBeat_freeCtr (s : State) (f : BeatSt → BeatSt) : (s.modBeat f).freeCtr = s.freeCtr := rfl
@[simp] theorem State.modBeat_nextTag (s : State) (f : BeatSt → BeatSt) : (s.modBeat f).nextTag = s.nextTag := rfl
@[simp] theorem State.modBeat_outbox (s : State) (f : BeatSt → BeatSt) : (s.modBeat f).outbox = s.outbox := rfl
@[simp] theorem State.modBeat_beat (s : State) (f : BeatSt → BeatSt) : (s.modBeat f).beat = f s.beat := rfl
@[simp] theorem State.modBeat_log (s : State) (f : BeatSt → BeatSt) : (s.modBeat f).log = s.log := rfl
@[simp] theorem State.modBeat_dies (s : State) (f : BeatSt → BeatSt) : (s.modBeat f).dies = s.dies := rfl
@[simp] theorem State.modBeat_links (s : State) (f : BeatSt → BeatSt) : (s.modBeat f).links = s.links := rfl
@[simp] theorem State.modBeat_regions (s : State) (f : BeatSt → BeatSt) : (s.modBeat f).regions = s.regions := rfl
@[simp] theorem State.modBeat_cores (s : State) (f : BeatSt → BeatSt) : (s.modBeat f).cores = s.cores := rfl
@[simp] theorem State.modBeat_ports (s : State) (f : BeatSt → BeatSt) : (s.modBeat f).ports = s.ports := rfl
@[simp] theorem State.modBeat_tongs (s : State) (f : BeatSt → BeatSt) : (s.modBeat f).tongs = s.tongs := rfl
@[simp] theorem State.modBeat_cmd (s : State) (f : BeatSt → BeatSt) : (s.modBeat f).cmd = s.cmd := rfl
@[simp] theorem State.modBeat_lid (s : State) (f : BeatSt → BeatSt) : (s.modBeat f).lid = s.lid := rfl
@[simp] theorem State.modBeat_integ (s : State) (f : BeatSt → BeatSt) : (s.modBeat f).integ = s.integ := rfl
@[simp] theorem State.modBeat_power (s : State) (f : BeatSt → BeatSt) : (s.modBeat f).power = s.power := rfl
@[simp] theorem State.modBeat_cfg (s : State) (f : BeatSt → BeatSt) : (s.modBeat f).cfg = s.cfg := rfl
@[simp] theorem State.modBeat_fw (s : State) (f : BeatSt → BeatSt) : (s.modBeat f).fw = s.fw := rfl
@[simp] theorem State.modBeat_side (s : State) (f : BeatSt → BeatSt) : (s.modBeat f).side = s.side := rfl
@[simp] theorem State.modBeat_hostReqs (s : State) (f : BeatSt → BeatSt) : (s.modBeat f).hostReqs = s.hostReqs := rfl
@[simp] theorem State.modBeat_heldMsgs (s : State) (f : BeatSt → BeatSt) : (s.modBeat f).heldMsgs = s.heldMsgs := rfl
@[simp] theorem State.modTongs_pending (s : State) (f : TongsSt → TongsSt) : (s.modTongs f).pending = s.pending := rfl
@[simp] theorem State.modTongs_freeCtr (s : State) (f : TongsSt → TongsSt) : (s.modTongs f).freeCtr = s.freeCtr := rfl
@[simp] theorem State.modTongs_nextTag (s : State) (f : TongsSt → TongsSt) : (s.modTongs f).nextTag = s.nextTag := rfl
@[simp] theorem State.modTongs_outbox (s : State) (f : TongsSt → TongsSt) : (s.modTongs f).outbox = s.outbox := rfl
@[simp] theorem State.modTongs_beat (s : State) (f : TongsSt → TongsSt) : (s.modTongs f).beat = s.beat := rfl
@[simp] theorem State.modTongs_log (s : State) (f : TongsSt → TongsSt) : (s.modTongs f).log = s.log := rfl
@[simp] theorem State.modTongs_dies (s : State) (f : TongsSt → TongsSt) : (s.modTongs f).dies = s.dies := rfl
@[simp] theorem State.modTongs_links (s : State) (f : TongsSt → TongsSt) : (s.modTongs f).links = s.links := rfl
@[simp] theorem State.modTongs_regions (s : State) (f : TongsSt → TongsSt) : (s.modTongs f).regions = s.regions := rfl
@[simp] theorem State.modTongs_cores (s : State) (f : TongsSt → TongsSt) : (s.modTongs f).cores = s.cores := rfl
@[simp] theorem State.modTongs_ports (s : State) (f : TongsSt → TongsSt) : (s.modTongs f).ports = s.ports := rfl
@[simp] theorem State.modTongs_tongs (s : State) (f : TongsSt → TongsSt) : (s.modTongs f).tongs = f s.tongs := rfl
@[simp] theorem State.modTongs_cmd (s : State) (f : TongsSt → TongsSt) : (s.modTongs f).cmd = s.cmd := rfl
@[simp] theorem State.modTongs_lid (s : State) (f : TongsSt → TongsSt) : (s.modTongs f).lid = s.lid := rfl
@[simp] theorem State.modTongs_integ (s : State) (f : TongsSt → TongsSt) : (s.modTongs f).integ = s.integ := rfl
@[simp] theorem State.modTongs_power (s : State) (f : TongsSt → TongsSt) : (s.modTongs f).power = s.power := rfl
@[simp] theorem State.modTongs_cfg (s : State) (f : TongsSt → TongsSt) : (s.modTongs f).cfg = s.cfg := rfl
@[simp] theorem State.modTongs_fw (s : State) (f : TongsSt → TongsSt) : (s.modTongs f).fw = s.fw := rfl
@[simp] theorem State.modTongs_side (s : State) (f : TongsSt → TongsSt) : (s.modTongs f).side = s.side := rfl
@[simp] theorem State.modTongs_hostReqs (s : State) (f : TongsSt → TongsSt) : (s.modTongs f).hostReqs = s.hostReqs := rfl
@[simp] theorem State.modTongs_heldMsgs (s : State) (f : TongsSt → TongsSt) : (s.modTongs f).heldMsgs = s.heldMsgs := rfl
@[simp] theorem State.modCmdU_pending (s : State) (f : CmdSt → CmdSt) : (s.modCmdU f).pending = s.pending := rfl
@[simp] theorem State.modCmdU_freeCtr (s : State) (f : CmdSt → CmdSt) : (s.modCmdU f).freeCtr = s.freeCtr := rfl
@[simp] theorem State.modCmdU_nextTag (s : State) (f : CmdSt → CmdSt) : (s.modCmdU f).nextTag = s.nextTag := rfl
@[simp] theorem State.modCmdU_outbox (s : State) (f : CmdSt → CmdSt) : (s.modCmdU f).outbox = s.outbox := rfl
@[simp] theorem State.modCmdU_beat (s : State) (f : CmdSt → CmdSt) : (s.modCmdU f).beat = s.beat := rfl
@[simp] theorem State.modCmdU_log (s : State) (f : CmdSt → CmdSt) : (s.modCmdU f).log = s.log := rfl
@[simp] theorem State.modCmdU_dies (s : State) (f : CmdSt → CmdSt) : (s.modCmdU f).dies = s.dies := rfl
@[simp] theorem State.modCmdU_links (s : State) (f : CmdSt → CmdSt) : (s.modCmdU f).links = s.links := rfl
@[simp] theorem State.modCmdU_regions (s : State) (f : CmdSt → CmdSt) : (s.modCmdU f).regions = s.regions := rfl
@[simp] theorem State.modCmdU_cores (s : State) (f : CmdSt → CmdSt) : (s.modCmdU f).cores = s.cores := rfl
@[simp] theorem State.modCmdU_ports (s : State) (f : CmdSt → CmdSt) : (s.modCmdU f).ports = s.ports := rfl
@[simp] theorem State.modCmdU_tongs (s : State) (f : CmdSt → CmdSt) : (s.modCmdU f).tongs = s.tongs := rfl
@[simp] theorem State.modCmdU_cmd (s : State) (f : CmdSt → CmdSt) : (s.modCmdU f).cmd = f s.cmd := rfl
@[simp] theorem State.modCmdU_lid (s : State) (f : CmdSt → CmdSt) : (s.modCmdU f).lid = s.lid := rfl
@[simp] theorem State.modCmdU_integ (s : State) (f : CmdSt → CmdSt) : (s.modCmdU f).integ = s.integ := rfl
@[simp] theorem State.modCmdU_power (s : State) (f : CmdSt → CmdSt) : (s.modCmdU f).power = s.power := rfl
@[simp] theorem State.modCmdU_cfg (s : State) (f : CmdSt → CmdSt) : (s.modCmdU f).cfg = s.cfg := rfl
@[simp] theorem State.modCmdU_fw (s : State) (f : CmdSt → CmdSt) : (s.modCmdU f).fw = s.fw := rfl
@[simp] theorem State.modCmdU_side (s : State) (f : CmdSt → CmdSt) : (s.modCmdU f).side = s.side := rfl
@[simp] theorem State.modCmdU_hostReqs (s : State) (f : CmdSt → CmdSt) : (s.modCmdU f).hostReqs = s.hostReqs := rfl
@[simp] theorem State.modCmdU_heldMsgs (s : State) (f : CmdSt → CmdSt) : (s.modCmdU f).heldMsgs = s.heldMsgs := rfl
@[simp] theorem State.modLid_pending (s : State) (f : LidSt → LidSt) : (s.modLid f).pending = s.pending := rfl
@[simp] theorem State.modLid_freeCtr (s : State) (f : LidSt → LidSt) : (s.modLid f).freeCtr = s.freeCtr := rfl
@[simp] theorem State.modLid_nextTag (s : State) (f : LidSt → LidSt) : (s.modLid f).nextTag = s.nextTag := rfl
@[simp] theorem State.modLid_outbox (s : State) (f : LidSt → LidSt) : (s.modLid f).outbox = s.outbox := rfl
@[simp] theorem State.modLid_beat (s : State) (f : LidSt → LidSt) : (s.modLid f).beat = s.beat := rfl
@[simp] theorem State.modLid_log (s : State) (f : LidSt → LidSt) : (s.modLid f).log = s.log := rfl
@[simp] theorem State.modLid_dies (s : State) (f : LidSt → LidSt) : (s.modLid f).dies = s.dies := rfl
@[simp] theorem State.modLid_links (s : State) (f : LidSt → LidSt) : (s.modLid f).links = s.links := rfl
@[simp] theorem State.modLid_regions (s : State) (f : LidSt → LidSt) : (s.modLid f).regions = s.regions := rfl
@[simp] theorem State.modLid_cores (s : State) (f : LidSt → LidSt) : (s.modLid f).cores = s.cores := rfl
@[simp] theorem State.modLid_ports (s : State) (f : LidSt → LidSt) : (s.modLid f).ports = s.ports := rfl
@[simp] theorem State.modLid_tongs (s : State) (f : LidSt → LidSt) : (s.modLid f).tongs = s.tongs := rfl
@[simp] theorem State.modLid_cmd (s : State) (f : LidSt → LidSt) : (s.modLid f).cmd = s.cmd := rfl
@[simp] theorem State.modLid_lid (s : State) (f : LidSt → LidSt) : (s.modLid f).lid = f s.lid := rfl
@[simp] theorem State.modLid_integ (s : State) (f : LidSt → LidSt) : (s.modLid f).integ = s.integ := rfl
@[simp] theorem State.modLid_power (s : State) (f : LidSt → LidSt) : (s.modLid f).power = s.power := rfl
@[simp] theorem State.modLid_cfg (s : State) (f : LidSt → LidSt) : (s.modLid f).cfg = s.cfg := rfl
@[simp] theorem State.modLid_fw (s : State) (f : LidSt → LidSt) : (s.modLid f).fw = s.fw := rfl
@[simp] theorem State.modLid_side (s : State) (f : LidSt → LidSt) : (s.modLid f).side = s.side := rfl
@[simp] theorem State.modLid_hostReqs (s : State) (f : LidSt → LidSt) : (s.modLid f).hostReqs = s.hostReqs := rfl
@[simp] theorem State.modLid_heldMsgs (s : State) (f : LidSt → LidSt) : (s.modLid f).heldMsgs = s.heldMsgs := rfl
@[simp] theorem State.modInteg_pending (s : State) (f : IntegritySt → IntegritySt) : (s.modInteg f).pending = s.pending := rfl
@[simp] theorem State.modInteg_freeCtr (s : State) (f : IntegritySt → IntegritySt) : (s.modInteg f).freeCtr = s.freeCtr := rfl
@[simp] theorem State.modInteg_nextTag (s : State) (f : IntegritySt → IntegritySt) : (s.modInteg f).nextTag = s.nextTag := rfl
@[simp] theorem State.modInteg_outbox (s : State) (f : IntegritySt → IntegritySt) : (s.modInteg f).outbox = s.outbox := rfl
@[simp] theorem State.modInteg_beat (s : State) (f : IntegritySt → IntegritySt) : (s.modInteg f).beat = s.beat := rfl
@[simp] theorem State.modInteg_log (s : State) (f : IntegritySt → IntegritySt) : (s.modInteg f).log = s.log := rfl
@[simp] theorem State.modInteg_dies (s : State) (f : IntegritySt → IntegritySt) : (s.modInteg f).dies = s.dies := rfl
@[simp] theorem State.modInteg_links (s : State) (f : IntegritySt → IntegritySt) : (s.modInteg f).links = s.links := rfl
@[simp] theorem State.modInteg_regions (s : State) (f : IntegritySt → IntegritySt) : (s.modInteg f).regions = s.regions := rfl
@[simp] theorem State.modInteg_cores (s : State) (f : IntegritySt → IntegritySt) : (s.modInteg f).cores = s.cores := rfl
@[simp] theorem State.modInteg_ports (s : State) (f : IntegritySt → IntegritySt) : (s.modInteg f).ports = s.ports := rfl
@[simp] theorem State.modInteg_tongs (s : State) (f : IntegritySt → IntegritySt) : (s.modInteg f).tongs = s.tongs := rfl
@[simp] theorem State.modInteg_cmd (s : State) (f : IntegritySt → IntegritySt) : (s.modInteg f).cmd = s.cmd := rfl
@[simp] theorem State.modInteg_lid (s : State) (f : IntegritySt → IntegritySt) : (s.modInteg f).lid = s.lid := rfl
@[simp] theorem State.modInteg_integ (s : State) (f : IntegritySt → IntegritySt) : (s.modInteg f).integ = f s.integ := rfl
@[simp] theorem State.modInteg_power (s : State) (f : IntegritySt → IntegritySt) : (s.modInteg f).power = s.power := rfl
@[simp] theorem State.modInteg_cfg (s : State) (f : IntegritySt → IntegritySt) : (s.modInteg f).cfg = s.cfg := rfl
@[simp] theorem State.modInteg_fw (s : State) (f : IntegritySt → IntegritySt) : (s.modInteg f).fw = s.fw := rfl
@[simp] theorem State.modInteg_side (s : State) (f : IntegritySt → IntegritySt) : (s.modInteg f).side = s.side := rfl
@[simp] theorem State.modInteg_hostReqs (s : State) (f : IntegritySt → IntegritySt) : (s.modInteg f).hostReqs = s.hostReqs := rfl
@[simp] theorem State.modInteg_heldMsgs (s : State) (f : IntegritySt → IntegritySt) : (s.modInteg f).heldMsgs = s.heldMsgs := rfl
@[simp] theorem State.modPower_pending (s : State) (f : PowerSt → PowerSt) : (s.modPower f).pending = s.pending := rfl
@[simp] theorem State.modPower_freeCtr (s : State) (f : PowerSt → PowerSt) : (s.modPower f).freeCtr = s.freeCtr := rfl
@[simp] theorem State.modPower_nextTag (s : State) (f : PowerSt → PowerSt) : (s.modPower f).nextTag = s.nextTag := rfl
@[simp] theorem State.modPower_outbox (s : State) (f : PowerSt → PowerSt) : (s.modPower f).outbox = s.outbox := rfl
@[simp] theorem State.modPower_beat (s : State) (f : PowerSt → PowerSt) : (s.modPower f).beat = s.beat := rfl
@[simp] theorem State.modPower_log (s : State) (f : PowerSt → PowerSt) : (s.modPower f).log = s.log := rfl
@[simp] theorem State.modPower_dies (s : State) (f : PowerSt → PowerSt) : (s.modPower f).dies = s.dies := rfl
@[simp] theorem State.modPower_links (s : State) (f : PowerSt → PowerSt) : (s.modPower f).links = s.links := rfl
@[simp] theorem State.modPower_regions (s : State) (f : PowerSt → PowerSt) : (s.modPower f).regions = s.regions := rfl
@[simp] theorem State.modPower_cores (s : State) (f : PowerSt → PowerSt) : (s.modPower f).cores = s.cores := rfl
@[simp] theorem State.modPower_ports (s : State) (f : PowerSt → PowerSt) : (s.modPower f).ports = s.ports := rfl
@[simp] theorem State.modPower_tongs (s : State) (f : PowerSt → PowerSt) : (s.modPower f).tongs = s.tongs := rfl
@[simp] theorem State.modPower_cmd (s : State) (f : PowerSt → PowerSt) : (s.modPower f).cmd = s.cmd := rfl
@[simp] theorem State.modPower_lid (s : State) (f : PowerSt → PowerSt) : (s.modPower f).lid = s.lid := rfl
@[simp] theorem State.modPower_integ (s : State) (f : PowerSt → PowerSt) : (s.modPower f).integ = s.integ := rfl
@[simp] theorem State.modPower_power (s : State) (f : PowerSt → PowerSt) : (s.modPower f).power = f s.power := rfl
@[simp] theorem State.modPower_cfg (s : State) (f : PowerSt → PowerSt) : (s.modPower f).cfg = s.cfg := rfl
@[simp] theorem State.modPower_fw (s : State) (f : PowerSt → PowerSt) : (s.modPower f).fw = s.fw := rfl
@[simp] theorem State.modPower_side (s : State) (f : PowerSt → PowerSt) : (s.modPower f).side = s.side := rfl
@[simp] theorem State.modPower_hostReqs (s : State) (f : PowerSt → PowerSt) : (s.modPower f).hostReqs = s.hostReqs := rfl
@[simp] theorem State.modPower_heldMsgs (s : State) (f : PowerSt → PowerSt) : (s.modPower f).heldMsgs = s.heldMsgs := rfl
@[simp] theorem State.beatCnt_pending (s : State) (k : Nat) : (s.beatCnt k).pending = s.pending := rfl
@[simp] theorem State.beatCnt_freeCtr (s : State) (k : Nat) : (s.beatCnt k).freeCtr = s.freeCtr := rfl
@[simp] theorem State.beatCnt_nextTag (s : State) (k : Nat) : (s.beatCnt k).nextTag = s.nextTag := rfl
@[simp] theorem State.beatCnt_outbox (s : State) (k : Nat) : (s.beatCnt k).outbox = s.outbox := rfl
@[simp] theorem State.beatCnt_beat (s : State) (k : Nat) : (s.beatCnt k).beat = { s.beat with cnt := bump s.beat.cnt k } := rfl
@[simp] theorem State.beatCnt_log (s : State) (k : Nat) : (s.beatCnt k).log = s.log := rfl
@[simp] theorem State.beatCnt_dies (s : State) (k : Nat) : (s.beatCnt k).dies = s.dies := rfl
@[simp] theorem State.beatCnt_links (s : State) (k : Nat) : (s.beatCnt k).links = s.links := rfl
@[simp] theorem State.beatCnt_regions (s : State) (k : Nat) : (s.beatCnt k).regions = s.regions := rfl
@[simp] theorem State.beatCnt_cores (s : State) (k : Nat) : (s.beatCnt k).cores = s.cores := rfl
@[simp] theorem State.beatCnt_ports (s : State) (k : Nat) : (s.beatCnt k).ports = s.ports := rfl
@[simp] theorem State.beatCnt_tongs (s : State) (k : Nat) : (s.beatCnt k).tongs = s.tongs := rfl
@[simp] theorem State.beatCnt_cmd (s : State) (k : Nat) : (s.beatCnt k).cmd = s.cmd := rfl
@[simp] theorem State.beatCnt_lid (s : State) (k : Nat) : (s.beatCnt k).lid = s.lid := rfl
@[simp] theorem State.beatCnt_integ (s : State) (k : Nat) : (s.beatCnt k).integ = s.integ := rfl
@[simp] theorem State.beatCnt_power (s : State) (k : Nat) : (s.beatCnt k).power = s.power := rfl
@[simp] theorem State.beatCnt_cfg (s : State) (k : Nat) : (s.beatCnt k).cfg = s.cfg := rfl
@[simp] theorem State.beatCnt_fw (s : State) (k : Nat) : (s.beatCnt k).fw = s.fw := rfl
@[simp] theorem State.beatCnt_side (s : State) (k : Nat) : (s.beatCnt k).side = s.side := rfl
@[simp] theorem State.beatCnt_hostReqs (s : State) (k : Nat) : (s.beatCnt k).hostReqs = s.hostReqs := rfl
@[simp] theorem State.beatCnt_heldMsgs (s : State) (k : Nat) : (s.beatCnt k).heldMsgs = s.heldMsgs := rfl
@[simp] theorem State.tngCnt_pending (s : State) (k n : Nat) : (s.tngCnt k n).pending = s.pending := rfl
@[simp] theorem State.tngCnt_freeCtr (s : State) (k n : Nat) : (s.tngCnt k n).freeCtr = s.freeCtr := rfl
@[simp] theorem State.tngCnt_nextTag (s : State) (k n : Nat) : (s.tngCnt k n).nextTag = s.nextTag := rfl
@[simp] theorem State.tngCnt_outbox (s : State) (k n : Nat) : (s.tngCnt k n).outbox = s.outbox := rfl
@[simp] theorem State.tngCnt_beat (s : State) (k n : Nat) : (s.tngCnt k n).beat = s.beat := rfl
@[simp] theorem State.tngCnt_log (s : State) (k n : Nat) : (s.tngCnt k n).log = s.log := rfl
@[simp] theorem State.tngCnt_dies (s : State) (k n : Nat) : (s.tngCnt k n).dies = s.dies := rfl
@[simp] theorem State.tngCnt_links (s : State) (k n : Nat) : (s.tngCnt k n).links = s.links := rfl
@[simp] theorem State.tngCnt_regions (s : State) (k n : Nat) : (s.tngCnt k n).regions = s.regions := rfl
@[simp] theorem State.tngCnt_cores (s : State) (k n : Nat) : (s.tngCnt k n).cores = s.cores := rfl
@[simp] theorem State.tngCnt_ports (s : State) (k n : Nat) : (s.tngCnt k n).ports = s.ports := rfl
@[simp] theorem State.tngCnt_tongs (s : State) (k n : Nat) : (s.tngCnt k n).tongs = { s.tongs with cnt := bumpBy s.tongs.cnt k n } := rfl
@[simp] theorem State.tngCnt_cmd (s : State) (k n : Nat) : (s.tngCnt k n).cmd = s.cmd := rfl
@[simp] theorem State.tngCnt_lid (s : State) (k n : Nat) : (s.tngCnt k n).lid = s.lid := rfl
@[simp] theorem State.tngCnt_integ (s : State) (k n : Nat) : (s.tngCnt k n).integ = s.integ := rfl
@[simp] theorem State.tngCnt_power (s : State) (k n : Nat) : (s.tngCnt k n).power = s.power := rfl
@[simp] theorem State.tngCnt_cfg (s : State) (k n : Nat) : (s.tngCnt k n).cfg = s.cfg := rfl
@[simp] theorem State.tngCnt_fw (s : State) (k n : Nat) : (s.tngCnt k n).fw = s.fw := rfl
@[simp] theorem State.tngCnt_side (s : State) (k n : Nat) : (s.tngCnt k n).side = s.side := rfl
@[simp] theorem State.tngCnt_hostReqs (s : State) (k n : Nat) : (s.tngCnt k n).hostReqs = s.hostReqs := rfl
@[simp] theorem State.tngCnt_heldMsgs (s : State) (k n : Nat) : (s.tngCnt k n).heldMsgs = s.heldMsgs := rfl
@[simp] theorem State.cmdCnt_pending (s : State) (k : Nat) : (s.cmdCnt k).pending = s.pending := rfl
@[simp] theorem State.cmdCnt_freeCtr (s : State) (k : Nat) : (s.cmdCnt k).freeCtr = s.freeCtr := rfl
@[simp] theorem State.cmdCnt_nextTag (s : State) (k : Nat) : (s.cmdCnt k).nextTag = s.nextTag := rfl
@[simp] theorem State.cmdCnt_outbox (s : State) (k : Nat) : (s.cmdCnt k).outbox = s.outbox := rfl
@[simp] theorem State.cmdCnt_beat (s : State) (k : Nat) : (s.cmdCnt k).beat = s.beat := rfl
@[simp] theorem State.cmdCnt_log (s : State) (k : Nat) : (s.cmdCnt k).log = s.log := rfl
@[simp] theorem State.cmdCnt_dies (s : State) (k : Nat) : (s.cmdCnt k).dies = s.dies := rfl
@[simp] theorem State.cmdCnt_links (s : State) (k : Nat) : (s.cmdCnt k).links = s.links := rfl
@[simp] theorem State.cmdCnt_regions (s : State) (k : Nat) : (s.cmdCnt k).regions = s.regions := rfl
@[simp] theorem State.cmdCnt_cores (s : State) (k : Nat) : (s.cmdCnt k).cores = s.cores := rfl
@[simp] theorem State.cmdCnt_ports (s : State) (k : Nat) : (s.cmdCnt k).ports = s.ports := rfl
@[simp] theorem State.cmdCnt_tongs (s : State) (k : Nat) : (s.cmdCnt k).tongs = s.tongs := rfl
@[simp] theorem State.cmdCnt_cmd (s : State) (k : Nat) : (s.cmdCnt k).cmd = { s.cmd with cnt := bump s.cmd.cnt k } := rfl
@[simp] theorem State.cmdCnt_lid (s : State) (k : Nat) : (s.cmdCnt k).lid = s.lid := rfl
@[simp] theorem State.cmdCnt_integ (s : State) (k : Nat) : (s.cmdCnt k).integ = s.integ := rfl
@[simp] theorem State.cmdCnt_power (s : State) (k : Nat) : (s.cmdCnt k).power = s.power := rfl
@[simp] theorem State.cmdCnt_cfg (s : State) (k : Nat) : (s.cmdCnt k).cfg = s.cfg := rfl
@[simp] theorem State.cmdCnt_fw (s : State) (k : Nat) : (s.cmdCnt k).fw = s.fw := rfl
@[simp] theorem State.cmdCnt_side (s : State) (k : Nat) : (s.cmdCnt k).side = s.side := rfl
@[simp] theorem State.cmdCnt_hostReqs (s : State) (k : Nat) : (s.cmdCnt k).hostReqs = s.hostReqs := rfl
@[simp] theorem State.cmdCnt_heldMsgs (s : State) (k : Nat) : (s.cmdCnt k).heldMsgs = s.heldMsgs := rfl
@[simp] theorem State.cliCnt_pending (s : State) (c k n : Nat) : (s.cliCnt c k n).pending = s.pending := rfl
@[simp] theorem State.cliCnt_freeCtr (s : State) (c k n : Nat) : (s.cliCnt c k n).freeCtr = s.freeCtr := rfl
@[simp] theorem State.cliCnt_nextTag (s : State) (c k n : Nat) : (s.cliCnt c k n).nextTag = s.nextTag := rfl
@[simp] theorem State.cliCnt_outbox (s : State) (c k n : Nat) : (s.cliCnt c k n).outbox = s.outbox := rfl
@[simp] theorem State.cliCnt_beat (s : State) (c k n : Nat) : (s.cliCnt c k n).beat = s.beat := rfl
@[simp] theorem State.cliCnt_log (s : State) (c k n : Nat) : (s.cliCnt c k n).log = s.log := rfl
@[simp] theorem State.cliCnt_dies (s : State) (c k n : Nat) : (s.cliCnt c k n).dies = s.dies := rfl
@[simp] theorem State.cliCnt_links (s : State) (c k n : Nat) : (s.cliCnt c k n).links = s.links := rfl
@[simp] theorem State.cliCnt_regions (s : State) (c k n : Nat) : (s.cliCnt c k n).regions = s.regions := rfl
@[simp] theorem State.cliCnt_cores (s : State) (c k n : Nat) : (s.cliCnt c k n).cores = s.cores := rfl
@[simp] theorem State.cliCnt_ports (s : State) (c k n : Nat) : (s.cliCnt c k n).ports = s.ports := rfl
@[simp] theorem State.cliCnt_tongs (s : State) (c k n : Nat) : (s.cliCnt c k n).tongs = s.tongs := rfl
@[simp] theorem State.cliCnt_cmd (s : State) (c k n : Nat) : (s.cliCnt c k n).cmd = { s.cmd with cli := vmod s.cmd.cli c fun v => bumpBy v k n } := rfl
@[simp] theorem State.cliCnt_lid (s : State) (c k n : Nat) : (s.cliCnt c k n).lid = s.lid := rfl
@[simp] theorem State.cliCnt_integ (s : State) (c k n : Nat) : (s.cliCnt c k n).integ = s.integ := rfl
@[simp] theorem State.cliCnt_power (s : State) (c k n : Nat) : (s.cliCnt c k n).power = s.power := rfl
@[simp] theorem State.cliCnt_cfg (s : State) (c k n : Nat) : (s.cliCnt c k n).cfg = s.cfg := rfl
@[simp] theorem State.cliCnt_fw (s : State) (c k n : Nat) : (s.cliCnt c k n).fw = s.fw := rfl
@[simp] theorem State.cliCnt_side (s : State) (c k n : Nat) : (s.cliCnt c k n).side = s.side := rfl
@[simp] theorem State.cliCnt_hostReqs (s : State) (c k n : Nat) : (s.cliCnt c k n).hostReqs = s.hostReqs := rfl
@[simp] theorem State.cliCnt_heldMsgs (s : State) (c k n : Nat) : (s.cliCnt c k n).heldMsgs = s.heldMsgs := rfl
@[simp] theorem State.lidCnt_pending (s : State) (k n : Nat) : (s.lidCnt k n).pending = s.pending := rfl
@[simp] theorem State.lidCnt_freeCtr (s : State) (k n : Nat) : (s.lidCnt k n).freeCtr = s.freeCtr := rfl
@[simp] theorem State.lidCnt_nextTag (s : State) (k n : Nat) : (s.lidCnt k n).nextTag = s.nextTag := rfl
@[simp] theorem State.lidCnt_outbox (s : State) (k n : Nat) : (s.lidCnt k n).outbox = s.outbox := rfl
@[simp] theorem State.lidCnt_beat (s : State) (k n : Nat) : (s.lidCnt k n).beat = s.beat := rfl
@[simp] theorem State.lidCnt_log (s : State) (k n : Nat) : (s.lidCnt k n).log = s.log := rfl
@[simp] theorem State.lidCnt_dies (s : State) (k n : Nat) : (s.lidCnt k n).dies = s.dies := rfl
@[simp] theorem State.lidCnt_links (s : State) (k n : Nat) : (s.lidCnt k n).links = s.links := rfl
@[simp] theorem State.lidCnt_regions (s : State) (k n : Nat) : (s.lidCnt k n).regions = s.regions := rfl
@[simp] theorem State.lidCnt_cores (s : State) (k n : Nat) : (s.lidCnt k n).cores = s.cores := rfl
@[simp] theorem State.lidCnt_ports (s : State) (k n : Nat) : (s.lidCnt k n).ports = s.ports := rfl
@[simp] theorem State.lidCnt_tongs (s : State) (k n : Nat) : (s.lidCnt k n).tongs = s.tongs := rfl
@[simp] theorem State.lidCnt_cmd (s : State) (k n : Nat) : (s.lidCnt k n).cmd = s.cmd := rfl
@[simp] theorem State.lidCnt_lid (s : State) (k n : Nat) : (s.lidCnt k n).lid = { s.lid with cnt := bumpBy s.lid.cnt k n } := rfl
@[simp] theorem State.lidCnt_integ (s : State) (k n : Nat) : (s.lidCnt k n).integ = s.integ := rfl
@[simp] theorem State.lidCnt_power (s : State) (k n : Nat) : (s.lidCnt k n).power = s.power := rfl
@[simp] theorem State.lidCnt_cfg (s : State) (k n : Nat) : (s.lidCnt k n).cfg = s.cfg := rfl
@[simp] theorem State.lidCnt_fw (s : State) (k n : Nat) : (s.lidCnt k n).fw = s.fw := rfl
@[simp] theorem State.lidCnt_side (s : State) (k n : Nat) : (s.lidCnt k n).side = s.side := rfl
@[simp] theorem State.lidCnt_hostReqs (s : State) (k n : Nat) : (s.lidCnt k n).hostReqs = s.hostReqs := rfl
@[simp] theorem State.lidCnt_heldMsgs (s : State) (k n : Nat) : (s.lidCnt k n).heldMsgs = s.heldMsgs := rfl
@[simp] theorem State.icnt_pending (s : State) (k n : Nat) : (s.icnt k n).pending = s.pending := rfl
@[simp] theorem State.icnt_freeCtr (s : State) (k n : Nat) : (s.icnt k n).freeCtr = s.freeCtr := rfl
@[simp] theorem State.icnt_nextTag (s : State) (k n : Nat) : (s.icnt k n).nextTag = s.nextTag := rfl
@[simp] theorem State.icnt_outbox (s : State) (k n : Nat) : (s.icnt k n).outbox = s.outbox := rfl
@[simp] theorem State.icnt_beat (s : State) (k n : Nat) : (s.icnt k n).beat = s.beat := rfl
@[simp] theorem State.icnt_log (s : State) (k n : Nat) : (s.icnt k n).log = s.log := rfl
@[simp] theorem State.icnt_dies (s : State) (k n : Nat) : (s.icnt k n).dies = s.dies := rfl
@[simp] theorem State.icnt_links (s : State) (k n : Nat) : (s.icnt k n).links = s.links := rfl
@[simp] theorem State.icnt_regions (s : State) (k n : Nat) : (s.icnt k n).regions = s.regions := rfl
@[simp] theorem State.icnt_cores (s : State) (k n : Nat) : (s.icnt k n).cores = s.cores := rfl
@[simp] theorem State.icnt_ports (s : State) (k n : Nat) : (s.icnt k n).ports = s.ports := rfl
@[simp] theorem State.icnt_tongs (s : State) (k n : Nat) : (s.icnt k n).tongs = s.tongs := rfl
@[simp] theorem State.icnt_cmd (s : State) (k n : Nat) : (s.icnt k n).cmd = s.cmd := rfl
@[simp] theorem State.icnt_lid (s : State) (k n : Nat) : (s.icnt k n).lid = s.lid := rfl
@[simp] theorem State.icnt_integ (s : State) (k n : Nat) : (s.icnt k n).integ = { s.integ with icnt := bumpBy s.integ.icnt k n } := rfl
@[simp] theorem State.icnt_power (s : State) (k n : Nat) : (s.icnt k n).power = s.power := rfl
@[simp] theorem State.icnt_cfg (s : State) (k n : Nat) : (s.icnt k n).cfg = s.cfg := rfl
@[simp] theorem State.icnt_fw (s : State) (k n : Nat) : (s.icnt k n).fw = s.fw := rfl
@[simp] theorem State.icnt_side (s : State) (k n : Nat) : (s.icnt k n).side = s.side := rfl
@[simp] theorem State.icnt_hostReqs (s : State) (k n : Nat) : (s.icnt k n).hostReqs = s.hostReqs := rfl
@[simp] theorem State.icnt_heldMsgs (s : State) (k n : Nat) : (s.icnt k n).heldMsgs = s.heldMsgs := rfl
@[simp] theorem State.pwrCnt_pending (s : State) (k n : Nat) : (s.pwrCnt k n).pending = s.pending := rfl
@[simp] theorem State.pwrCnt_freeCtr (s : State) (k n : Nat) : (s.pwrCnt k n).freeCtr = s.freeCtr := rfl
@[simp] theorem State.pwrCnt_nextTag (s : State) (k n : Nat) : (s.pwrCnt k n).nextTag = s.nextTag := rfl
@[simp] theorem State.pwrCnt_outbox (s : State) (k n : Nat) : (s.pwrCnt k n).outbox = s.outbox := rfl
@[simp] theorem State.pwrCnt_beat (s : State) (k n : Nat) : (s.pwrCnt k n).beat = s.beat := rfl
@[simp] theorem State.pwrCnt_log (s : State) (k n : Nat) : (s.pwrCnt k n).log = s.log := rfl
@[simp] theorem State.pwrCnt_dies (s : State) (k n : Nat) : (s.pwrCnt k n).dies = s.dies := rfl
@[simp] theorem State.pwrCnt_links (s : State) (k n : Nat) : (s.pwrCnt k n).links = s.links := rfl
@[simp] theorem State.pwrCnt_regions (s : State) (k n : Nat) : (s.pwrCnt k n).regions = s.regions := rfl
@[simp] theorem State.pwrCnt_cores (s : State) (k n : Nat) : (s.pwrCnt k n).cores = s.cores := rfl
@[simp] theorem State.pwrCnt_ports (s : State) (k n : Nat) : (s.pwrCnt k n).ports = s.ports := rfl
@[simp] theorem State.pwrCnt_tongs (s : State) (k n : Nat) : (s.pwrCnt k n).tongs = s.tongs := rfl
@[simp] theorem State.pwrCnt_cmd (s : State) (k n : Nat) : (s.pwrCnt k n).cmd = s.cmd := rfl
@[simp] theorem State.pwrCnt_lid (s : State) (k n : Nat) : (s.pwrCnt k n).lid = s.lid := rfl
@[simp] theorem State.pwrCnt_integ (s : State) (k n : Nat) : (s.pwrCnt k n).integ = s.integ := rfl
@[simp] theorem State.pwrCnt_power (s : State) (k n : Nat) : (s.pwrCnt k n).power = { s.power with cnt := bumpBy s.power.cnt k n } := rfl
@[simp] theorem State.pwrCnt_cfg (s : State) (k n : Nat) : (s.pwrCnt k n).cfg = s.cfg := rfl
@[simp] theorem State.pwrCnt_fw (s : State) (k n : Nat) : (s.pwrCnt k n).fw = s.fw := rfl
@[simp] theorem State.pwrCnt_side (s : State) (k n : Nat) : (s.pwrCnt k n).side = s.side := rfl
@[simp] theorem State.pwrCnt_hostReqs (s : State) (k n : Nat) : (s.pwrCnt k n).hostReqs = s.hostReqs := rfl
@[simp] theorem State.pwrCnt_heldMsgs (s : State) (k n : Nat) : (s.pwrCnt k n).heldMsgs = s.heldMsgs := rfl
@[simp] theorem State.fjlCnt_pending (s : State) (p k n : Nat) : (s.fjlCnt p k n).pending = s.pending := rfl
@[simp] theorem State.fjlCnt_freeCtr (s : State) (p k n : Nat) : (s.fjlCnt p k n).freeCtr = s.freeCtr := rfl
@[simp] theorem State.fjlCnt_nextTag (s : State) (p k n : Nat) : (s.fjlCnt p k n).nextTag = s.nextTag := rfl
@[simp] theorem State.fjlCnt_outbox (s : State) (p k n : Nat) : (s.fjlCnt p k n).outbox = s.outbox := rfl
@[simp] theorem State.fjlCnt_beat (s : State) (p k n : Nat) : (s.fjlCnt p k n).beat = s.beat := rfl
@[simp] theorem State.fjlCnt_log (s : State) (p k n : Nat) : (s.fjlCnt p k n).log = s.log := rfl
@[simp] theorem State.fjlCnt_dies (s : State) (p k n : Nat) : (s.fjlCnt p k n).dies = s.dies := rfl
@[simp] theorem State.fjlCnt_links (s : State) (p k n : Nat) : (s.fjlCnt p k n).links = s.links := rfl
@[simp] theorem State.fjlCnt_regions (s : State) (p k n : Nat) : (s.fjlCnt p k n).regions = s.regions := rfl
@[simp] theorem State.fjlCnt_cores (s : State) (p k n : Nat) : (s.fjlCnt p k n).cores = s.cores := rfl
@[simp] theorem State.fjlCnt_ports (s : State) (p k n : Nat) : (s.fjlCnt p k n).ports = vmod s.ports p fun q => { q with cnt := bumpBy q.cnt k n } := rfl
@[simp] theorem State.fjlCnt_tongs (s : State) (p k n : Nat) : (s.fjlCnt p k n).tongs = s.tongs := rfl
@[simp] theorem State.fjlCnt_cmd (s : State) (p k n : Nat) : (s.fjlCnt p k n).cmd = s.cmd := rfl
@[simp] theorem State.fjlCnt_lid (s : State) (p k n : Nat) : (s.fjlCnt p k n).lid = s.lid := rfl
@[simp] theorem State.fjlCnt_integ (s : State) (p k n : Nat) : (s.fjlCnt p k n).integ = s.integ := rfl
@[simp] theorem State.fjlCnt_power (s : State) (p k n : Nat) : (s.fjlCnt p k n).power = s.power := rfl
@[simp] theorem State.fjlCnt_cfg (s : State) (p k n : Nat) : (s.fjlCnt p k n).cfg = s.cfg := rfl
@[simp] theorem State.fjlCnt_fw (s : State) (p k n : Nat) : (s.fjlCnt p k n).fw = s.fw := rfl
@[simp] theorem State.fjlCnt_side (s : State) (p k n : Nat) : (s.fjlCnt p k n).side = s.side := rfl
@[simp] theorem State.fjlCnt_hostReqs (s : State) (p k n : Nat) : (s.fjlCnt p k n).hostReqs = s.hostReqs := rfl
@[simp] theorem State.fjlCnt_heldMsgs (s : State) (p k n : Nat) : (s.fjlCnt p k n).heldMsgs = s.heldMsgs := rfl
@[simp] theorem State.rgnCnt_pending (s : State) (r k n : Nat) : (s.rgnCnt r k n).pending = s.pending := rfl
@[simp] theorem State.rgnCnt_freeCtr (s : State) (r k n : Nat) : (s.rgnCnt r k n).freeCtr = s.freeCtr := rfl
@[simp] theorem State.rgnCnt_nextTag (s : State) (r k n : Nat) : (s.rgnCnt r k n).nextTag = s.nextTag := rfl
@[simp] theorem State.rgnCnt_outbox (s : State) (r k n : Nat) : (s.rgnCnt r k n).outbox = s.outbox := rfl
@[simp] theorem State.rgnCnt_beat (s : State) (r k n : Nat) : (s.rgnCnt r k n).beat = s.beat := rfl
@[simp] theorem State.rgnCnt_log (s : State) (r k n : Nat) : (s.rgnCnt r k n).log = s.log := rfl
@[simp] theorem State.rgnCnt_dies (s : State) (r k n : Nat) : (s.rgnCnt r k n).dies = s.dies := rfl
@[simp] theorem State.rgnCnt_links (s : State) (r k n : Nat) : (s.rgnCnt r k n).links = s.links := rfl
@[simp] theorem State.rgnCnt_regions (s : State) (r k n : Nat) : (s.rgnCnt r k n).regions = vmod s.regions r fun q => { q with cnt := bumpBy q.cnt k n } := rfl
@[simp] theorem State.rgnCnt_cores (s : State) (r k n : Nat) : (s.rgnCnt r k n).cores = s.cores := rfl
@[simp] theorem State.rgnCnt_ports (s : State) (r k n : Nat) : (s.rgnCnt r k n).ports = s.ports := rfl
@[simp] theorem State.rgnCnt_tongs (s : State) (r k n : Nat) : (s.rgnCnt r k n).tongs = s.tongs := rfl
@[simp] theorem State.rgnCnt_cmd (s : State) (r k n : Nat) : (s.rgnCnt r k n).cmd = s.cmd := rfl
@[simp] theorem State.rgnCnt_lid (s : State) (r k n : Nat) : (s.rgnCnt r k n).lid = s.lid := rfl
@[simp] theorem State.rgnCnt_integ (s : State) (r k n : Nat) : (s.rgnCnt r k n).integ = s.integ := rfl
@[simp] theorem State.rgnCnt_power (s : State) (r k n : Nat) : (s.rgnCnt r k n).power = s.power := rfl
@[simp] theorem State.rgnCnt_cfg (s : State) (r k n : Nat) : (s.rgnCnt r k n).cfg = s.cfg := rfl
@[simp] theorem State.rgnCnt_fw (s : State) (r k n : Nat) : (s.rgnCnt r k n).fw = s.fw := rfl
@[simp] theorem State.rgnCnt_side (s : State) (r k n : Nat) : (s.rgnCnt r k n).side = s.side := rfl
@[simp] theorem State.rgnCnt_hostReqs (s : State) (r k n : Nat) : (s.rgnCnt r k n).hostReqs = s.hostReqs := rfl
@[simp] theorem State.rgnCnt_heldMsgs (s : State) (r k n : Nat) : (s.rgnCnt r k n).heldMsgs = s.heldMsgs := rfl

/-! ## Accessors after an update of another field -/

@[simp] theorem State.setCore_die_eq (s : State) (n : Nat) (c : CoreSt) (x : Nat) : (s.setCore n c).die x = s.die x := rfl
@[simp] theorem State.setCore_region_eq (s : State) (n : Nat) (c : CoreSt) (x : Nat) : (s.setCore n c).region x = s.region x := rfl
@[simp] theorem State.setCore_port_eq (s : State) (n : Nat) (c : CoreSt) (x : Nat) : (s.setCore n c).port x = s.port x := rfl
@[simp] theorem State.setCore_now_eq (s : State) (n : Nat) (c : CoreSt) : (s.setCore n c).now = s.now := rfl
@[simp] theorem State.setCore_edge_eq (s : State) (n : Nat) (c : CoreSt) : (s.setCore n c).edge = s.edge := rfl
@[simp] theorem State.setCore_pkgIdField_eq (s : State) (n : Nat) (c : CoreSt) : (s.setCore n c).pkgIdField = s.pkgIdField := rfl
@[simp] theorem State.modCore_die_eq (s : State) (n : Nat) (f : CoreSt → CoreSt) (x : Nat) : (s.modCore n f).die x = s.die x := rfl
@[simp] theorem State.modCore_region_eq (s : State) (n : Nat) (f : CoreSt → CoreSt) (x : Nat) : (s.modCore n f).region x = s.region x := rfl
@[simp] theorem State.modCore_port_eq (s : State) (n : Nat) (f : CoreSt → CoreSt) (x : Nat) : (s.modCore n f).port x = s.port x := rfl
@[simp] theorem State.modCore_now_eq (s : State) (n : Nat) (f : CoreSt → CoreSt) : (s.modCore n f).now = s.now := rfl
@[simp] theorem State.modCore_edge_eq (s : State) (n : Nat) (f : CoreSt → CoreSt) : (s.modCore n f).edge = s.edge := rfl
@[simp] theorem State.modCore_pkgIdField_eq (s : State) (n : Nat) (f : CoreSt → CoreSt) : (s.modCore n f).pkgIdField = s.pkgIdField := rfl
@[simp] theorem State.modDie_core_eq (s : State) (d : Nat) (f : DieSt → DieSt) (x : Nat) : (s.modDie d f).core x = s.core x := rfl
@[simp] theorem State.modDie_region_eq (s : State) (d : Nat) (f : DieSt → DieSt) (x : Nat) : (s.modDie d f).region x = s.region x := rfl
@[simp] theorem State.modDie_port_eq (s : State) (d : Nat) (f : DieSt → DieSt) (x : Nat) : (s.modDie d f).port x = s.port x := rfl
@[simp] theorem State.modDie_now_eq (s : State) (d : Nat) (f : DieSt → DieSt) : (s.modDie d f).now = s.now := rfl
@[simp] theorem State.modDie_edge_eq (s : State) (d : Nat) (f : DieSt → DieSt) : (s.modDie d f).edge = s.edge := rfl
@[simp] theorem State.modDie_pkgIdField_eq (s : State) (d : Nat) (f : DieSt → DieSt) : (s.modDie d f).pkgIdField = s.pkgIdField := rfl
@[simp] theorem State.modRegion_core_eq (s : State) (r : Nat) (f : Region → Region) (x : Nat) : (s.modRegion r f).core x = s.core x := rfl
@[simp] theorem State.modRegion_die_eq (s : State) (r : Nat) (f : Region → Region) (x : Nat) : (s.modRegion r f).die x = s.die x := rfl
@[simp] theorem State.modRegion_port_eq (s : State) (r : Nat) (f : Region → Region) (x : Nat) : (s.modRegion r f).port x = s.port x := rfl
@[simp] theorem State.modRegion_now_eq (s : State) (r : Nat) (f : Region → Region) : (s.modRegion r f).now = s.now := rfl
@[simp] theorem State.modRegion_edge_eq (s : State) (r : Nat) (f : Region → Region) : (s.modRegion r f).edge = s.edge := rfl
@[simp] theorem State.modRegion_pkgIdField_eq (s : State) (r : Nat) (f : Region → Region) : (s.modRegion r f).pkgIdField = s.pkgIdField := rfl
@[simp] theorem State.modPort_core_eq (s : State) (p : Nat) (f : Port → Port) (x : Nat) : (s.modPort p f).core x = s.core x := rfl
@[simp] theorem State.modPort_die_eq (s : State) (p : Nat) (f : Port → Port) (x : Nat) : (s.modPort p f).die x = s.die x := rfl
@[simp] theorem State.modPort_region_eq (s : State) (p : Nat) (f : Port → Port) (x : Nat) : (s.modPort p f).region x = s.region x := rfl
@[simp] theorem State.modPort_now_eq (s : State) (p : Nat) (f : Port → Port) : (s.modPort p f).now = s.now := rfl
@[simp] theorem State.modPort_edge_eq (s : State) (p : Nat) (f : Port → Port) : (s.modPort p f).edge = s.edge := rfl
@[simp] theorem State.modPort_pkgIdField_eq (s : State) (p : Nat) (f : Port → Port) : (s.modPort p f).pkgIdField = s.pkgIdField := rfl
@[simp] theorem State.modLink_core_eq (s : State) (l : Nat) (f : D2D → D2D) (x : Nat) : (s.modLink l f).core x = s.core x := rfl
@[simp] theorem State.modLink_die_eq (s : State) (l : Nat) (f : D2D → D2D) (x : Nat) : (s.modLink l f).die x = s.die x := rfl
@[simp] theorem State.modLink_region_eq (s : State) (l : Nat) (f : D2D → D2D) (x : Nat) : (s.modLink l f).region x = s.region x := rfl
@[simp] theorem State.modLink_port_eq (s : State) (l : Nat) (f : D2D → D2D) (x : Nat) : (s.modLink l f).port x = s.port x := rfl
@[simp] theorem State.modLink_now_eq (s : State) (l : Nat) (f : D2D → D2D) : (s.modLink l f).now = s.now := rfl
@[simp] theorem State.modLink_edge_eq (s : State) (l : Nat) (f : D2D → D2D) : (s.modLink l f).edge = s.edge := rfl
@[simp] theorem State.modLink_pkgIdField_eq (s : State) (l : Nat) (f : D2D → D2D) : (s.modLink l f).pkgIdField = s.pkgIdField := rfl
@[simp] theorem State.modBeat_core_eq (s : State) (f : BeatSt → BeatSt) (x : Nat) : (s.modBeat f).core x = s.core x := rfl
@[simp] theorem State.modBeat_die_eq (s : State) (f : BeatSt → BeatSt) (x : Nat) : (s.modBeat f).die x = s.die x := rfl
@[simp] theorem State.modBeat_region_eq (s : State) (f : BeatSt → BeatSt) (x : Nat) : (s.modBeat f).region x = s.region x := rfl
@[simp] theorem State.modBeat_port_eq (s : State) (f : BeatSt → BeatSt) (x : Nat) : (s.modBeat f).port x = s.port x := rfl
@[simp] theorem State.modBeat_pkgIdField_eq (s : State) (f : BeatSt → BeatSt) : (s.modBeat f).pkgIdField = s.pkgIdField := rfl
@[simp] theorem State.modTongs_core_eq (s : State) (f : TongsSt → TongsSt) (x : Nat) : (s.modTongs f).core x = s.core x := rfl
@[simp] theorem State.modTongs_die_eq (s : State) (f : TongsSt → TongsSt) (x : Nat) : (s.modTongs f).die x = s.die x := rfl
@[simp] theorem State.modTongs_region_eq (s : State) (f : TongsSt → TongsSt) (x : Nat) : (s.modTongs f).region x = s.region x := rfl
@[simp] theorem State.modTongs_port_eq (s : State) (f : TongsSt → TongsSt) (x : Nat) : (s.modTongs f).port x = s.port x := rfl
@[simp] theorem State.modTongs_now_eq (s : State) (f : TongsSt → TongsSt) : (s.modTongs f).now = s.now := rfl
@[simp] theorem State.modTongs_edge_eq (s : State) (f : TongsSt → TongsSt) : (s.modTongs f).edge = s.edge := rfl
@[simp] theorem State.modTongs_pkgIdField_eq (s : State) (f : TongsSt → TongsSt) : (s.modTongs f).pkgIdField = s.pkgIdField := rfl
@[simp] theorem State.modCmdU_core_eq (s : State) (f : CmdSt → CmdSt) (x : Nat) : (s.modCmdU f).core x = s.core x := rfl
@[simp] theorem State.modCmdU_die_eq (s : State) (f : CmdSt → CmdSt) (x : Nat) : (s.modCmdU f).die x = s.die x := rfl
@[simp] theorem State.modCmdU_region_eq (s : State) (f : CmdSt → CmdSt) (x : Nat) : (s.modCmdU f).region x = s.region x := rfl
@[simp] theorem State.modCmdU_port_eq (s : State) (f : CmdSt → CmdSt) (x : Nat) : (s.modCmdU f).port x = s.port x := rfl
@[simp] theorem State.modCmdU_now_eq (s : State) (f : CmdSt → CmdSt) : (s.modCmdU f).now = s.now := rfl
@[simp] theorem State.modCmdU_edge_eq (s : State) (f : CmdSt → CmdSt) : (s.modCmdU f).edge = s.edge := rfl
@[simp] theorem State.modCmdU_pkgIdField_eq (s : State) (f : CmdSt → CmdSt) : (s.modCmdU f).pkgIdField = s.pkgIdField := rfl
@[simp] theorem State.modLid_core_eq (s : State) (f : LidSt → LidSt) (x : Nat) : (s.modLid f).core x = s.core x := rfl
@[simp] theorem State.modLid_die_eq (s : State) (f : LidSt → LidSt) (x : Nat) : (s.modLid f).die x = s.die x := rfl
@[simp] theorem State.modLid_region_eq (s : State) (f : LidSt → LidSt) (x : Nat) : (s.modLid f).region x = s.region x := rfl
@[simp] theorem State.modLid_port_eq (s : State) (f : LidSt → LidSt) (x : Nat) : (s.modLid f).port x = s.port x := rfl
@[simp] theorem State.modLid_now_eq (s : State) (f : LidSt → LidSt) : (s.modLid f).now = s.now := rfl
@[simp] theorem State.modLid_edge_eq (s : State) (f : LidSt → LidSt) : (s.modLid f).edge = s.edge := rfl
@[simp] theorem State.modLid_pkgIdField_eq (s : State) (f : LidSt → LidSt) : (s.modLid f).pkgIdField = s.pkgIdField := rfl
@[simp] theorem State.modInteg_core_eq (s : State) (f : IntegritySt → IntegritySt) (x : Nat) : (s.modInteg f).core x = s.core x := rfl
@[simp] theorem State.modInteg_die_eq (s : State) (f : IntegritySt → IntegritySt) (x : Nat) : (s.modInteg f).die x = s.die x := rfl
@[simp] theorem State.modInteg_region_eq (s : State) (f : IntegritySt → IntegritySt) (x : Nat) : (s.modInteg f).region x = s.region x := rfl
@[simp] theorem State.modInteg_port_eq (s : State) (f : IntegritySt → IntegritySt) (x : Nat) : (s.modInteg f).port x = s.port x := rfl
@[simp] theorem State.modInteg_now_eq (s : State) (f : IntegritySt → IntegritySt) : (s.modInteg f).now = s.now := rfl
@[simp] theorem State.modInteg_edge_eq (s : State) (f : IntegritySt → IntegritySt) : (s.modInteg f).edge = s.edge := rfl
@[simp] theorem State.modInteg_pkgIdField_eq (s : State) (f : IntegritySt → IntegritySt) : (s.modInteg f).pkgIdField = s.pkgIdField := rfl
@[simp] theorem State.modPower_core_eq (s : State) (f : PowerSt → PowerSt) (x : Nat) : (s.modPower f).core x = s.core x := rfl
@[simp] theorem State.modPower_die_eq (s : State) (f : PowerSt → PowerSt) (x : Nat) : (s.modPower f).die x = s.die x := rfl
@[simp] theorem State.modPower_region_eq (s : State) (f : PowerSt → PowerSt) (x : Nat) : (s.modPower f).region x = s.region x := rfl
@[simp] theorem State.modPower_port_eq (s : State) (f : PowerSt → PowerSt) (x : Nat) : (s.modPower f).port x = s.port x := rfl
@[simp] theorem State.modPower_now_eq (s : State) (f : PowerSt → PowerSt) : (s.modPower f).now = s.now := rfl
@[simp] theorem State.modPower_edge_eq (s : State) (f : PowerSt → PowerSt) : (s.modPower f).edge = s.edge := rfl
@[simp] theorem State.modPower_pkgIdField_eq (s : State) (f : PowerSt → PowerSt) : (s.modPower f).pkgIdField = s.pkgIdField := rfl
@[simp] theorem State.beatCnt_core_eq (s : State) (k : Nat) (x : Nat) : (s.beatCnt k).core x = s.core x := rfl
@[simp] theorem State.beatCnt_die_eq (s : State) (k : Nat) (x : Nat) : (s.beatCnt k).die x = s.die x := rfl
@[simp] theorem State.beatCnt_region_eq (s : State) (k : Nat) (x : Nat) : (s.beatCnt k).region x = s.region x := rfl
@[simp] theorem State.beatCnt_port_eq (s : State) (k : Nat) (x : Nat) : (s.beatCnt k).port x = s.port x := rfl
@[simp] theorem State.beatCnt_pkgIdField_eq (s : State) (k : Nat) : (s.beatCnt k).pkgIdField = s.pkgIdField := rfl
@[simp] theorem State.tngCnt_core_eq (s : State) (k n : Nat) (x : Nat) : (s.tngCnt k n).core x = s.core x := rfl
@[simp] theorem State.tngCnt_die_eq (s : State) (k n : Nat) (x : Nat) : (s.tngCnt k n).die x = s.die x := rfl
@[simp] theorem State.tngCnt_region_eq (s : State) (k n : Nat) (x : Nat) : (s.tngCnt k n).region x = s.region x := rfl
@[simp] theorem State.tngCnt_port_eq (s : State) (k n : Nat) (x : Nat) : (s.tngCnt k n).port x = s.port x := rfl
@[simp] theorem State.tngCnt_now_eq (s : State) (k n : Nat) : (s.tngCnt k n).now = s.now := rfl
@[simp] theorem State.tngCnt_edge_eq (s : State) (k n : Nat) : (s.tngCnt k n).edge = s.edge := rfl
@[simp] theorem State.tngCnt_pkgIdField_eq (s : State) (k n : Nat) : (s.tngCnt k n).pkgIdField = s.pkgIdField := rfl
@[simp] theorem State.cmdCnt_core_eq (s : State) (k : Nat) (x : Nat) : (s.cmdCnt k).core x = s.core x := rfl
@[simp] theorem State.cmdCnt_die_eq (s : State) (k : Nat) (x : Nat) : (s.cmdCnt k).die x = s.die x := rfl
@[simp] theorem State.cmdCnt_region_eq (s : State) (k : Nat) (x : Nat) : (s.cmdCnt k).region x = s.region x := rfl
@[simp] theorem State.cmdCnt_port_eq (s : State) (k : Nat) (x : Nat) : (s.cmdCnt k).port x = s.port x := rfl
@[simp] theorem State.cmdCnt_now_eq (s : State) (k : Nat) : (s.cmdCnt k).now = s.now := rfl
@[simp] theorem State.cmdCnt_edge_eq (s : State) (k : Nat) : (s.cmdCnt k).edge = s.edge := rfl
@[simp] theorem State.cmdCnt_pkgIdField_eq (s : State) (k : Nat) : (s.cmdCnt k).pkgIdField = s.pkgIdField := rfl
@[simp] theorem State.cliCnt_core_eq (s : State) (c k n : Nat) (x : Nat) : (s.cliCnt c k n).core x = s.core x := rfl
@[simp] theorem State.cliCnt_die_eq (s : State) (c k n : Nat) (x : Nat) : (s.cliCnt c k n).die x = s.die x := rfl
@[simp] theorem State.cliCnt_region_eq (s : State) (c k n : Nat) (x : Nat) : (s.cliCnt c k n).region x = s.region x := rfl
@[simp] theorem State.cliCnt_port_eq (s : State) (c k n : Nat) (x : Nat) : (s.cliCnt c k n).port x = s.port x := rfl
@[simp] theorem State.cliCnt_now_eq (s : State) (c k n : Nat) : (s.cliCnt c k n).now = s.now := rfl
@[simp] theorem State.cliCnt_edge_eq (s : State) (c k n : Nat) : (s.cliCnt c k n).edge = s.edge := rfl
@[simp] theorem State.cliCnt_pkgIdField_eq (s : State) (c k n : Nat) : (s.cliCnt c k n).pkgIdField = s.pkgIdField := rfl
@[simp] theorem State.lidCnt_core_eq (s : State) (k n : Nat) (x : Nat) : (s.lidCnt k n).core x = s.core x := rfl
@[simp] theorem State.lidCnt_die_eq (s : State) (k n : Nat) (x : Nat) : (s.lidCnt k n).die x = s.die x := rfl
@[simp] theorem State.lidCnt_region_eq (s : State) (k n : Nat) (x : Nat) : (s.lidCnt k n).region x = s.region x := rfl
@[simp] theorem State.lidCnt_port_eq (s : State) (k n : Nat) (x : Nat) : (s.lidCnt k n).port x = s.port x := rfl
@[simp] theorem State.lidCnt_now_eq (s : State) (k n : Nat) : (s.lidCnt k n).now = s.now := rfl
@[simp] theorem State.lidCnt_edge_eq (s : State) (k n : Nat) : (s.lidCnt k n).edge = s.edge := rfl
@[simp] theorem State.lidCnt_pkgIdField_eq (s : State) (k n : Nat) : (s.lidCnt k n).pkgIdField = s.pkgIdField := rfl
@[simp] theorem State.icnt_core_eq (s : State) (k n : Nat) (x : Nat) : (s.icnt k n).core x = s.core x := rfl
@[simp] theorem State.icnt_die_eq (s : State) (k n : Nat) (x : Nat) : (s.icnt k n).die x = s.die x := rfl
@[simp] theorem State.icnt_region_eq (s : State) (k n : Nat) (x : Nat) : (s.icnt k n).region x = s.region x := rfl
@[simp] theorem State.icnt_port_eq (s : State) (k n : Nat) (x : Nat) : (s.icnt k n).port x = s.port x := rfl
@[simp] theorem State.icnt_now_eq (s : State) (k n : Nat) : (s.icnt k n).now = s.now := rfl
@[simp] theorem State.icnt_edge_eq (s : State) (k n : Nat) : (s.icnt k n).edge = s.edge := rfl
@[simp] theorem State.icnt_pkgIdField_eq (s : State) (k n : Nat) : (s.icnt k n).pkgIdField = s.pkgIdField := rfl
@[simp] theorem State.pwrCnt_core_eq (s : State) (k n : Nat) (x : Nat) : (s.pwrCnt k n).core x = s.core x := rfl
@[simp] theorem State.pwrCnt_die_eq (s : State) (k n : Nat) (x : Nat) : (s.pwrCnt k n).die x = s.die x := rfl
@[simp] theorem State.pwrCnt_region_eq (s : State) (k n : Nat) (x : Nat) : (s.pwrCnt k n).region x = s.region x := rfl
@[simp] theorem State.pwrCnt_port_eq (s : State) (k n : Nat) (x : Nat) : (s.pwrCnt k n).port x = s.port x := rfl
@[simp] theorem State.pwrCnt_now_eq (s : State) (k n : Nat) : (s.pwrCnt k n).now = s.now := rfl
@[simp] theorem State.pwrCnt_edge_eq (s : State) (k n : Nat) : (s.pwrCnt k n).edge = s.edge := rfl
@[simp] theorem State.pwrCnt_pkgIdField_eq (s : State) (k n : Nat) : (s.pwrCnt k n).pkgIdField = s.pkgIdField := rfl
@[simp] theorem State.fjlCnt_core_eq (s : State) (p k n : Nat) (x : Nat) : (s.fjlCnt p k n).core x = s.core x := rfl
@[simp] theorem State.fjlCnt_die_eq (s : State) (p k n : Nat) (x : Nat) : (s.fjlCnt p k n).die x = s.die x := rfl
@[simp] theorem State.fjlCnt_region_eq (s : State) (p k n : Nat) (x : Nat) : (s.fjlCnt p k n).region x = s.region x := rfl
@[simp] theorem State.fjlCnt_now_eq (s : State) (p k n : Nat) : (s.fjlCnt p k n).now = s.now := rfl
@[simp] theorem State.fjlCnt_edge_eq (s : State) (p k n : Nat) : (s.fjlCnt p k n).edge = s.edge := rfl
@[simp] theorem State.fjlCnt_pkgIdField_eq (s : State) (p k n : Nat) : (s.fjlCnt p k n).pkgIdField = s.pkgIdField := rfl
@[simp] theorem State.rgnCnt_core_eq (s : State) (r k n : Nat) (x : Nat) : (s.rgnCnt r k n).core x = s.core x := rfl
@[simp] theorem State.rgnCnt_die_eq (s : State) (r k n : Nat) (x : Nat) : (s.rgnCnt r k n).die x = s.die x := rfl
@[simp] theorem State.rgnCnt_port_eq (s : State) (r k n : Nat) (x : Nat) : (s.rgnCnt r k n).port x = s.port x := rfl
@[simp] theorem State.rgnCnt_now_eq (s : State) (r k n : Nat) : (s.rgnCnt r k n).now = s.now := rfl
@[simp] theorem State.rgnCnt_edge_eq (s : State) (r k n : Nat) : (s.rgnCnt r k n).edge = s.edge := rfl
@[simp] theorem State.rgnCnt_pkgIdField_eq (s : State) (r k n : Nat) : (s.rgnCnt r k n).pkgIdField = s.pkgIdField := rfl

/-! ## Sending, logging: everything they can do -/


/-- A port's pump changes ports only. -/
theorem State.pump_shape (s : State) (p : Nat) : ∃ ps, s.pump p = { s with ports := ps } := by
  unfold State.pump
  simp only []
  split
  · exact ⟨_, rfl⟩
  · exact ⟨s.ports, rfl⟩

/-- A message handed to a port's transmitter joins the outbox; besides, ports change. -/
theorem State.transmit_shape (s : State) (p : Nat) (m : Msg) :
    ∃ ps, s.transmit p m = { s with ports := ps, outbox := s.outbox ++ [OutItem.msg p m] } := by
  unfold State.transmit
  simp only []
  generalize hq : State.modPort _ p _ = t
  obtain ⟨ps, h⟩ := t.pump_shape p
  rw [h, ← hq]
  exact ⟨ps, rfl⟩

/-- A message to the host joins the outbox; besides, ports change. -/
theorem State.sendHost_shape (s : State) (u tag : Nat) (b : Body) :
    ∃ ps, s.sendHost u tag b = { s with ports := ps, outbox := s.outbox ++ [OutItem.msg 16 { body := b, src := s.pkgIdField, dunit := 0xFF, sunit := u, tag := tag }] } :=
  s.transmit_shape 16 _

/-- A code that occurs changes the log, and through its EVENT the outbox and ports. -/
theorem State.logEv_shape (s : State) (e : LogEv) :
    ∃ l ob ps, s.logEv e = { s with log := l, outbox := ob, ports := ps } := by
  unfold State.logEv
  simp only []
  split
  · exact ⟨_, s.outbox, s.ports, rfl⟩
  · split
    · obtain ⟨ps, h⟩ := State.sendHost_shape _ 0xFF 0 _
      rw [h]
      exact ⟨_, _, ps, rfl⟩
    · exact ⟨_, s.outbox, s.ports, rfl⟩

/-- An ERROR answered within the package joins the outbox. -/
theorem State.answerErrorHere_shape (s : State) (code mt du tag : Nat) :
    ∃ ob, s.answerErrorHere code mt du tag = { s with outbox := ob } := by
  unfold State.answerErrorHere
  split
  · exact ⟨s.outbox, rfl⟩
  · exact ⟨_, rfl⟩

/-- A message sent to a package changes the outbox, ports, and the log of a DST that is not routed. -/
theorem State.sendFabric_shape (s : State) (m : Msg) :
    ∃ l ob ps, s.sendFabric m = { s with log := l, outbox := ob, ports := ps } := by
  unfold State.sendFabric
  simp only []
  split
  · exact ⟨s.log, _, s.ports, rfl⟩
  · obtain ⟨ps, h⟩ := State.transmit_shape s _ _
    rw [h]; exact ⟨s.log, _, ps, rfl⟩
  · obtain ⟨ob, h⟩ := State.answerErrorHere_shape (s.fjlCnt _ 14 1) _ _ _ _
    rw [h]; exact ⟨s.log, ob, _, rfl⟩
  · obtain ⟨l, ob, ps, h⟩ := State.logEv_shape s { code := 0x6A, unit := 0xF4, pkg := m.dst }
    rw [h]
    split
    · obtain ⟨ob', h'⟩ := State.answerErrorHere_shape { s with log := l, outbox := ob, ports := ps } 0x6A m.body.mtype m.sunit m.tag
      rw [h']; exact ⟨l, ob', ps, rfl⟩
    · exact ⟨l, ob, ps, rfl⟩

/-- One copy of a broadcast changes the outbox and ports. -/
theorem State.forwardBcast_shape (s : State) (m : Msg) (k : Nat) (mi : Bool) (r : Nat) (d : Bool) :
    ∃ ob ps, s.forwardBcast m k mi r d = { s with outbox := ob, ports := ps } := by
  unfold State.forwardBcast
  simp only []
  split
  · obtain ⟨ps, h⟩ := State.transmit_shape s _ _
    rw [h]; exact ⟨_, ps, rfl⟩
  · exact ⟨s.outbox, s.ports, rfl⟩

/-- A fold of operations that change the outbox and ports changes the outbox and ports. -/
theorem foldl_outbox_ports {α : Type} (l : List α) (f : State → α → State)
    (hf : ∀ s x, ∃ ob ps, f s x = { s with outbox := ob, ports := ps }) (s : State) :
    ∃ ob ps, l.foldl f s = { s with outbox := ob, ports := ps } := by
  induction l generalizing s with
  | nil => exact ⟨s.outbox, s.ports, rfl⟩
  | cons a l ih =>
    obtain ⟨ob, ps, h⟩ := hf s a
    obtain ⟨ob', ps', h'⟩ := ih (f s a)
    exact ⟨ob', ps', by rw [List.foldl_cons, h', h]⟩

/-- The copies of a broadcast change the outbox and ports. -/
theorem State.spreadBcast_shape (s : State) (m : Msg) (a : Option (Nat × Bool × Nat × Bool)) :
    ∃ ob ps, s.spreadBcast m a = { s with outbox := ob, ports := ps } := by
  have one : ∀ (t : State) (c : Prop) [Decidable c] (k : Nat) (mi : Bool) (r : Nat) (d : Bool),
      ∃ ob ps, (if c then t.forwardBcast m k mi r d else t) = { t with outbox := ob, ports := ps } := by
    intro t c _ k mi r d
    split
    · exact t.forwardBcast_shape ..
    · exact ⟨t.outbox, t.ports, rfl⟩
  have all : ∀ (t : State) (lo hi first : Nat), ∃ ob ps, (List.range 4).foldl (fun s k =>
      if k < first then s
      else
        let ud := State.spread s lo hi k
        let s := if 0 < ud.1 then s.forwardBcast m k false (ud.1 - 1) false else s
        if 0 < ud.2 then s.forwardBcast m k true (ud.2 - 1) false else s) t = { t with outbox := ob, ports := ps } := by
    intro t lo hi first
    refine foldl_outbox_ports _ _ ?_ t
    intro t k
    split
    · exact ⟨t.outbox, t.ports, rfl⟩
    · obtain ⟨ob1, ps1, h1⟩ := one t (0 < (t.spread lo hi k).1) k false ((t.spread lo hi k).1 - 1) false
      simp only [h1]
      obtain ⟨ob2, ps2, h2⟩ := one { t with outbox := ob1, ports := ps1 } (0 < (t.spread lo hi k).2) k true ((t.spread lo hi k).2 - 1) false
      rw [h2]
      exact ⟨ob2, ps2, rfl⟩
  unfold State.spreadBcast
  split
  · exact ⟨s.outbox, s.ports, rfl⟩
  · rename_i lo hi _
    cases a with
    | none => exact all s lo hi 0
    | some x =>
      obtain ⟨k, mi, r, d⟩ := x
      obtain ⟨ob, ps, h⟩ := one s (0 < r) k mi (r - 1) d
      obtain ⟨ob', ps', h'⟩ := all { s with outbox := ob, ports := ps } lo hi (k + 1)
      simp only [h]
      exact ⟨ob', ps', h'.trans rfl⟩

/-- A broadcast that this package starts changes the outbox and ports. -/
theorem State.broadcast_shape (s : State) (lo hi : Nat) (b : Body) :
    ∃ ob ps, s.broadcast lo hi b = { s with outbox := ob, ports := ps } := s.spreadBcast_shape _ _

/-! ## Fields after sending and logging -/

@[simp] theorem State.pump_pending (s : State) (p : Nat) : (s.pump p).pending = s.pending := by
  obtain ⟨_, h⟩ := s.pump_shape p; rw [h]
@[simp] theorem State.pump_freeCtr (s : State) (p : Nat) : (s.pump p).freeCtr = s.freeCtr := by
  obtain ⟨_, h⟩ := s.pump_shape p; rw [h]
@[simp] theorem State.pump_nextTag (s : State) (p : Nat) : (s.pump p).nextTag = s.nextTag := by
  obtain ⟨_, h⟩ := s.pump_shape p; rw [h]
@[simp] theorem State.pump_beat (s : State) (p : Nat) : (s.pump p).beat = s.beat := by
  obtain ⟨_, h⟩ := s.pump_shape p; rw [h]
@[simp] theorem State.pump_dies (s : State) (p : Nat) : (s.pump p).dies = s.dies := by
  obtain ⟨_, h⟩ := s.pump_shape p; rw [h]
@[simp] theorem State.pump_links (s : State) (p : Nat) : (s.pump p).links = s.links := by
  obtain ⟨_, h⟩ := s.pump_shape p; rw [h]
@[simp] theorem State.pump_regions (s : State) (p : Nat) : (s.pump p).regions = s.regions := by
  obtain ⟨_, h⟩ := s.pump_shape p; rw [h]
@[simp] theorem State.pump_cores (s : State) (p : Nat) : (s.pump p).cores = s.cores := by
  obtain ⟨_, h⟩ := s.pump_shape p; rw [h]
@[simp] theorem State.pump_tongs (s : State) (p : Nat) : (s.pump p).tongs = s.tongs := by
  obtain ⟨_, h⟩ := s.pump_shape p; rw [h]
@[simp] theorem State.pump_cmd (s : State) (p : Nat) : (s.pump p).cmd = s.cmd := by
  obtain ⟨_, h⟩ := s.pump_shape p; rw [h]
@[simp] theorem State.pump_lid (s : State) (p : Nat) : (s.pump p).lid = s.lid := by
  obtain ⟨_, h⟩ := s.pump_shape p; rw [h]
@[simp] theorem State.pump_integ (s : State) (p : Nat) : (s.pump p).integ = s.integ := by
  obtain ⟨_, h⟩ := s.pump_shape p; rw [h]
@[simp] theorem State.pump_power (s : State) (p : Nat) : (s.pump p).power = s.power := by
  obtain ⟨_, h⟩ := s.pump_shape p; rw [h]
@[simp] theorem State.pump_cfg (s : State) (p : Nat) : (s.pump p).cfg = s.cfg := by
  obtain ⟨_, h⟩ := s.pump_shape p; rw [h]
@[simp] theorem State.pump_fw (s : State) (p : Nat) : (s.pump p).fw = s.fw := by
  obtain ⟨_, h⟩ := s.pump_shape p; rw [h]
@[simp] theorem State.pump_side (s : State) (p : Nat) : (s.pump p).side = s.side := by
  obtain ⟨_, h⟩ := s.pump_shape p; rw [h]
@[simp] theorem State.pump_hostReqs (s : State) (p : Nat) : (s.pump p).hostReqs = s.hostReqs := by
  obtain ⟨_, h⟩ := s.pump_shape p; rw [h]
@[simp] theorem State.pump_heldMsgs (s : State) (p : Nat) : (s.pump p).heldMsgs = s.heldMsgs := by
  obtain ⟨_, h⟩ := s.pump_shape p; rw [h]
@[simp] theorem State.pump_core_eq (s : State) (p : Nat) (x : Nat) : (s.pump p).core x = s.core x := by
  obtain ⟨_, h⟩ := s.pump_shape p; rw [h]; rfl
@[simp] theorem State.pump_die_eq (s : State) (p : Nat) (x : Nat) : (s.pump p).die x = s.die x := by
  obtain ⟨_, h⟩ := s.pump_shape p; rw [h]; rfl
@[simp] theorem State.pump_region_eq (s : State) (p : Nat) (x : Nat) : (s.pump p).region x = s.region x := by
  obtain ⟨_, h⟩ := s.pump_shape p; rw [h]; rfl
@[simp] theorem State.pump_now_eq (s : State) (p : Nat) : (s.pump p).now = s.now := by
  obtain ⟨_, h⟩ := s.pump_shape p; rw [h]; rfl
@[simp] theorem State.pump_edge_eq (s : State) (p : Nat) : (s.pump p).edge = s.edge := by
  obtain ⟨_, h⟩ := s.pump_shape p; rw [h]; rfl
@[simp] theorem State.pump_pkgIdField_eq (s : State) (p : Nat) : (s.pump p).pkgIdField = s.pkgIdField := by
  obtain ⟨_, h⟩ := s.pump_shape p; rw [h]; rfl
@[simp] theorem State.transmit_pending (s : State) (p : Nat) (m : Msg) : (s.transmit p m).pending = s.pending := by
  obtain ⟨_, h⟩ := s.transmit_shape p m; rw [h]
@[simp] theorem State.transmit_freeCtr (s : State) (p : Nat) (m : Msg) : (s.transmit p m).freeCtr = s.freeCtr := by
  obtain ⟨_, h⟩ := s.transmit_shape p m; rw [h]
@[simp] theorem State.transmit_nextTag (s : State) (p : Nat) (m : Msg) : (s.transmit p m).nextTag = s.nextTag := by
  obtain ⟨_, h⟩ := s.transmit_shape p m; rw [h]
@[simp] theorem State.transmit_beat (s : State) (p : Nat) (m : Msg) : (s.transmit p m).beat = s.beat := by
  obtain ⟨_, h⟩ := s.transmit_shape p m; rw [h]
@[simp] theorem State.transmit_dies (s : State) (p : Nat) (m : Msg) : (s.transmit p m).dies = s.dies := by
  obtain ⟨_, h⟩ := s.transmit_shape p m; rw [h]
@[simp] theorem State.transmit_links (s : State) (p : Nat) (m : Msg) : (s.transmit p m).links = s.links := by
  obtain ⟨_, h⟩ := s.transmit_shape p m; rw [h]
@[simp] theorem State.transmit_regions (s : State) (p : Nat) (m : Msg) : (s.transmit p m).regions = s.regions := by
  obtain ⟨_, h⟩ := s.transmit_shape p m; rw [h]
@[simp] theorem State.transmit_cores (s : State) (p : Nat) (m : Msg) : (s.transmit p m).cores = s.cores := by
  obtain ⟨_, h⟩ := s.transmit_shape p m; rw [h]
@[simp] theorem State.transmit_tongs (s : State) (p : Nat) (m : Msg) : (s.transmit p m).tongs = s.tongs := by
  obtain ⟨_, h⟩ := s.transmit_shape p m; rw [h]
@[simp] theorem State.transmit_cmd (s : State) (p : Nat) (m : Msg) : (s.transmit p m).cmd = s.cmd := by
  obtain ⟨_, h⟩ := s.transmit_shape p m; rw [h]
@[simp] theorem State.transmit_lid (s : State) (p : Nat) (m : Msg) : (s.transmit p m).lid = s.lid := by
  obtain ⟨_, h⟩ := s.transmit_shape p m; rw [h]
@[simp] theorem State.transmit_integ (s : State) (p : Nat) (m : Msg) : (s.transmit p m).integ = s.integ := by
  obtain ⟨_, h⟩ := s.transmit_shape p m; rw [h]
@[simp] theorem State.transmit_power (s : State) (p : Nat) (m : Msg) : (s.transmit p m).power = s.power := by
  obtain ⟨_, h⟩ := s.transmit_shape p m; rw [h]
@[simp] theorem State.transmit_cfg (s : State) (p : Nat) (m : Msg) : (s.transmit p m).cfg = s.cfg := by
  obtain ⟨_, h⟩ := s.transmit_shape p m; rw [h]
@[simp] theorem State.transmit_fw (s : State) (p : Nat) (m : Msg) : (s.transmit p m).fw = s.fw := by
  obtain ⟨_, h⟩ := s.transmit_shape p m; rw [h]
@[simp] theorem State.transmit_side (s : State) (p : Nat) (m : Msg) : (s.transmit p m).side = s.side := by
  obtain ⟨_, h⟩ := s.transmit_shape p m; rw [h]
@[simp] theorem State.transmit_hostReqs (s : State) (p : Nat) (m : Msg) : (s.transmit p m).hostReqs = s.hostReqs := by
  obtain ⟨_, h⟩ := s.transmit_shape p m; rw [h]
@[simp] theorem State.transmit_heldMsgs (s : State) (p : Nat) (m : Msg) : (s.transmit p m).heldMsgs = s.heldMsgs := by
  obtain ⟨_, h⟩ := s.transmit_shape p m; rw [h]
@[simp] theorem State.transmit_core_eq (s : State) (p : Nat) (m : Msg) (x : Nat) : (s.transmit p m).core x = s.core x := by
  obtain ⟨_, h⟩ := s.transmit_shape p m; rw [h]; rfl
@[simp] theorem State.transmit_die_eq (s : State) (p : Nat) (m : Msg) (x : Nat) : (s.transmit p m).die x = s.die x := by
  obtain ⟨_, h⟩ := s.transmit_shape p m; rw [h]; rfl
@[simp] theorem State.transmit_region_eq (s : State) (p : Nat) (m : Msg) (x : Nat) : (s.transmit p m).region x = s.region x := by
  obtain ⟨_, h⟩ := s.transmit_shape p m; rw [h]; rfl
@[simp] theorem State.transmit_now_eq (s : State) (p : Nat) (m : Msg) : (s.transmit p m).now = s.now := by
  obtain ⟨_, h⟩ := s.transmit_shape p m; rw [h]; rfl
@[simp] theorem State.transmit_edge_eq (s : State) (p : Nat) (m : Msg) : (s.transmit p m).edge = s.edge := by
  obtain ⟨_, h⟩ := s.transmit_shape p m; rw [h]; rfl
@[simp] theorem State.transmit_pkgIdField_eq (s : State) (p : Nat) (m : Msg) : (s.transmit p m).pkgIdField = s.pkgIdField := by
  obtain ⟨_, h⟩ := s.transmit_shape p m; rw [h]; rfl
@[simp] theorem State.sendHost_pending (s : State) (u tag : Nat) (b : Body) : (s.sendHost u tag b).pending = s.pending := by
  obtain ⟨_, h⟩ := s.sendHost_shape u tag b; rw [h]
@[simp] theorem State.sendHost_freeCtr (s : State) (u tag : Nat) (b : Body) : (s.sendHost u tag b).freeCtr = s.freeCtr := by
  obtain ⟨_, h⟩ := s.sendHost_shape u tag b; rw [h]
@[simp] theorem State.sendHost_nextTag (s : State) (u tag : Nat) (b : Body) : (s.sendHost u tag b).nextTag = s.nextTag := by
  obtain ⟨_, h⟩ := s.sendHost_shape u tag b; rw [h]
@[simp] theorem State.sendHost_beat (s : State) (u tag : Nat) (b : Body) : (s.sendHost u tag b).beat = s.beat := by
  obtain ⟨_, h⟩ := s.sendHost_shape u tag b; rw [h]
@[simp] theorem State.sendHost_dies (s : State) (u tag : Nat) (b : Body) : (s.sendHost u tag b).dies = s.dies := by
  obtain ⟨_, h⟩ := s.sendHost_shape u tag b; rw [h]
@[simp] theorem State.sendHost_links (s : State) (u tag : Nat) (b : Body) : (s.sendHost u tag b).links = s.links := by
  obtain ⟨_, h⟩ := s.sendHost_shape u tag b; rw [h]
@[simp] theorem State.sendHost_regions (s : State) (u tag : Nat) (b : Body) : (s.sendHost u tag b).regions = s.regions := by
  obtain ⟨_, h⟩ := s.sendHost_shape u tag b; rw [h]
@[simp] theorem State.sendHost_cores (s : State) (u tag : Nat) (b : Body) : (s.sendHost u tag b).cores = s.cores := by
  obtain ⟨_, h⟩ := s.sendHost_shape u tag b; rw [h]
@[simp] theorem State.sendHost_tongs (s : State) (u tag : Nat) (b : Body) : (s.sendHost u tag b).tongs = s.tongs := by
  obtain ⟨_, h⟩ := s.sendHost_shape u tag b; rw [h]
@[simp] theorem State.sendHost_cmd (s : State) (u tag : Nat) (b : Body) : (s.sendHost u tag b).cmd = s.cmd := by
  obtain ⟨_, h⟩ := s.sendHost_shape u tag b; rw [h]
@[simp] theorem State.sendHost_lid (s : State) (u tag : Nat) (b : Body) : (s.sendHost u tag b).lid = s.lid := by
  obtain ⟨_, h⟩ := s.sendHost_shape u tag b; rw [h]
@[simp] theorem State.sendHost_integ (s : State) (u tag : Nat) (b : Body) : (s.sendHost u tag b).integ = s.integ := by
  obtain ⟨_, h⟩ := s.sendHost_shape u tag b; rw [h]
@[simp] theorem State.sendHost_power (s : State) (u tag : Nat) (b : Body) : (s.sendHost u tag b).power = s.power := by
  obtain ⟨_, h⟩ := s.sendHost_shape u tag b; rw [h]
@[simp] theorem State.sendHost_cfg (s : State) (u tag : Nat) (b : Body) : (s.sendHost u tag b).cfg = s.cfg := by
  obtain ⟨_, h⟩ := s.sendHost_shape u tag b; rw [h]
@[simp] theorem State.sendHost_fw (s : State) (u tag : Nat) (b : Body) : (s.sendHost u tag b).fw = s.fw := by
  obtain ⟨_, h⟩ := s.sendHost_shape u tag b; rw [h]
@[simp] theorem State.sendHost_side (s : State) (u tag : Nat) (b : Body) : (s.sendHost u tag b).side = s.side := by
  obtain ⟨_, h⟩ := s.sendHost_shape u tag b; rw [h]
@[simp] theorem State.sendHost_hostReqs (s : State) (u tag : Nat) (b : Body) : (s.sendHost u tag b).hostReqs = s.hostReqs := by
  obtain ⟨_, h⟩ := s.sendHost_shape u tag b; rw [h]
@[simp] theorem State.sendHost_heldMsgs (s : State) (u tag : Nat) (b : Body) : (s.sendHost u tag b).heldMsgs = s.heldMsgs := by
  obtain ⟨_, h⟩ := s.sendHost_shape u tag b; rw [h]
@[simp] theorem State.sendHost_core_eq (s : State) (u tag : Nat) (b : Body) (x : Nat) : (s.sendHost u tag b).core x = s.core x := by
  obtain ⟨_, h⟩ := s.sendHost_shape u tag b; rw [h]; rfl
@[simp] theorem State.sendHost_die_eq (s : State) (u tag : Nat) (b : Body) (x : Nat) : (s.sendHost u tag b).die x = s.die x := by
  obtain ⟨_, h⟩ := s.sendHost_shape u tag b; rw [h]; rfl
@[simp] theorem State.sendHost_region_eq (s : State) (u tag : Nat) (b : Body) (x : Nat) : (s.sendHost u tag b).region x = s.region x := by
  obtain ⟨_, h⟩ := s.sendHost_shape u tag b; rw [h]; rfl
@[simp] theorem State.sendHost_now_eq (s : State) (u tag : Nat) (b : Body) : (s.sendHost u tag b).now = s.now := by
  obtain ⟨_, h⟩ := s.sendHost_shape u tag b; rw [h]; rfl
@[simp] theorem State.sendHost_edge_eq (s : State) (u tag : Nat) (b : Body) : (s.sendHost u tag b).edge = s.edge := by
  obtain ⟨_, h⟩ := s.sendHost_shape u tag b; rw [h]; rfl
@[simp] theorem State.sendHost_pkgIdField_eq (s : State) (u tag : Nat) (b : Body) : (s.sendHost u tag b).pkgIdField = s.pkgIdField := by
  obtain ⟨_, h⟩ := s.sendHost_shape u tag b; rw [h]; rfl
@[simp] theorem State.logEv_pending (s : State) (e : LogEv) : (s.logEv e).pending = s.pending := by
  obtain ⟨_, _, _, h⟩ := s.logEv_shape e; rw [h]
@[simp] theorem State.logEv_freeCtr (s : State) (e : LogEv) : (s.logEv e).freeCtr = s.freeCtr := by
  obtain ⟨_, _, _, h⟩ := s.logEv_shape e; rw [h]
@[simp] theorem State.logEv_nextTag (s : State) (e : LogEv) : (s.logEv e).nextTag = s.nextTag := by
  obtain ⟨_, _, _, h⟩ := s.logEv_shape e; rw [h]
@[simp] theorem State.logEv_beat (s : State) (e : LogEv) : (s.logEv e).beat = s.beat := by
  obtain ⟨_, _, _, h⟩ := s.logEv_shape e; rw [h]
@[simp] theorem State.logEv_dies (s : State) (e : LogEv) : (s.logEv e).dies = s.dies := by
  obtain ⟨_, _, _, h⟩ := s.logEv_shape e; rw [h]
@[simp] theorem State.logEv_links (s : State) (e : LogEv) : (s.logEv e).links = s.links := by
  obtain ⟨_, _, _, h⟩ := s.logEv_shape e; rw [h]
@[simp] theorem State.logEv_regions (s : State) (e : LogEv) : (s.logEv e).regions = s.regions := by
  obtain ⟨_, _, _, h⟩ := s.logEv_shape e; rw [h]
@[simp] theorem State.logEv_cores (s : State) (e : LogEv) : (s.logEv e).cores = s.cores := by
  obtain ⟨_, _, _, h⟩ := s.logEv_shape e; rw [h]
@[simp] theorem State.logEv_tongs (s : State) (e : LogEv) : (s.logEv e).tongs = s.tongs := by
  obtain ⟨_, _, _, h⟩ := s.logEv_shape e; rw [h]
@[simp] theorem State.logEv_cmd (s : State) (e : LogEv) : (s.logEv e).cmd = s.cmd := by
  obtain ⟨_, _, _, h⟩ := s.logEv_shape e; rw [h]
@[simp] theorem State.logEv_lid (s : State) (e : LogEv) : (s.logEv e).lid = s.lid := by
  obtain ⟨_, _, _, h⟩ := s.logEv_shape e; rw [h]
@[simp] theorem State.logEv_integ (s : State) (e : LogEv) : (s.logEv e).integ = s.integ := by
  obtain ⟨_, _, _, h⟩ := s.logEv_shape e; rw [h]
@[simp] theorem State.logEv_power (s : State) (e : LogEv) : (s.logEv e).power = s.power := by
  obtain ⟨_, _, _, h⟩ := s.logEv_shape e; rw [h]
@[simp] theorem State.logEv_cfg (s : State) (e : LogEv) : (s.logEv e).cfg = s.cfg := by
  obtain ⟨_, _, _, h⟩ := s.logEv_shape e; rw [h]
@[simp] theorem State.logEv_fw (s : State) (e : LogEv) : (s.logEv e).fw = s.fw := by
  obtain ⟨_, _, _, h⟩ := s.logEv_shape e; rw [h]
@[simp] theorem State.logEv_side (s : State) (e : LogEv) : (s.logEv e).side = s.side := by
  obtain ⟨_, _, _, h⟩ := s.logEv_shape e; rw [h]
@[simp] theorem State.logEv_hostReqs (s : State) (e : LogEv) : (s.logEv e).hostReqs = s.hostReqs := by
  obtain ⟨_, _, _, h⟩ := s.logEv_shape e; rw [h]
@[simp] theorem State.logEv_heldMsgs (s : State) (e : LogEv) : (s.logEv e).heldMsgs = s.heldMsgs := by
  obtain ⟨_, _, _, h⟩ := s.logEv_shape e; rw [h]
@[simp] theorem State.logEv_core_eq (s : State) (e : LogEv) (x : Nat) : (s.logEv e).core x = s.core x := by
  obtain ⟨_, _, _, h⟩ := s.logEv_shape e; rw [h]; rfl
@[simp] theorem State.logEv_die_eq (s : State) (e : LogEv) (x : Nat) : (s.logEv e).die x = s.die x := by
  obtain ⟨_, _, _, h⟩ := s.logEv_shape e; rw [h]; rfl
@[simp] theorem State.logEv_region_eq (s : State) (e : LogEv) (x : Nat) : (s.logEv e).region x = s.region x := by
  obtain ⟨_, _, _, h⟩ := s.logEv_shape e; rw [h]; rfl
@[simp] theorem State.logEv_now_eq (s : State) (e : LogEv) : (s.logEv e).now = s.now := by
  obtain ⟨_, _, _, h⟩ := s.logEv_shape e; rw [h]; rfl
@[simp] theorem State.logEv_edge_eq (s : State) (e : LogEv) : (s.logEv e).edge = s.edge := by
  obtain ⟨_, _, _, h⟩ := s.logEv_shape e; rw [h]; rfl
@[simp] theorem State.logEv_pkgIdField_eq (s : State) (e : LogEv) : (s.logEv e).pkgIdField = s.pkgIdField := by
  obtain ⟨_, _, _, h⟩ := s.logEv_shape e; rw [h]; rfl
@[simp] theorem State.answerErrorHere_pending (s : State) (code mt du tag : Nat) : (s.answerErrorHere code mt du tag).pending = s.pending := by
  obtain ⟨_, h⟩ := s.answerErrorHere_shape code mt du tag; rw [h]
@[simp] theorem State.answerErrorHere_freeCtr (s : State) (code mt du tag : Nat) : (s.answerErrorHere code mt du tag).freeCtr = s.freeCtr := by
  obtain ⟨_, h⟩ := s.answerErrorHere_shape code mt du tag; rw [h]
@[simp] theorem State.answerErrorHere_nextTag (s : State) (code mt du tag : Nat) : (s.answerErrorHere code mt du tag).nextTag = s.nextTag := by
  obtain ⟨_, h⟩ := s.answerErrorHere_shape code mt du tag; rw [h]
@[simp] theorem State.answerErrorHere_beat (s : State) (code mt du tag : Nat) : (s.answerErrorHere code mt du tag).beat = s.beat := by
  obtain ⟨_, h⟩ := s.answerErrorHere_shape code mt du tag; rw [h]
@[simp] theorem State.answerErrorHere_dies (s : State) (code mt du tag : Nat) : (s.answerErrorHere code mt du tag).dies = s.dies := by
  obtain ⟨_, h⟩ := s.answerErrorHere_shape code mt du tag; rw [h]
@[simp] theorem State.answerErrorHere_links (s : State) (code mt du tag : Nat) : (s.answerErrorHere code mt du tag).links = s.links := by
  obtain ⟨_, h⟩ := s.answerErrorHere_shape code mt du tag; rw [h]
@[simp] theorem State.answerErrorHere_regions (s : State) (code mt du tag : Nat) : (s.answerErrorHere code mt du tag).regions = s.regions := by
  obtain ⟨_, h⟩ := s.answerErrorHere_shape code mt du tag; rw [h]
@[simp] theorem State.answerErrorHere_cores (s : State) (code mt du tag : Nat) : (s.answerErrorHere code mt du tag).cores = s.cores := by
  obtain ⟨_, h⟩ := s.answerErrorHere_shape code mt du tag; rw [h]
@[simp] theorem State.answerErrorHere_tongs (s : State) (code mt du tag : Nat) : (s.answerErrorHere code mt du tag).tongs = s.tongs := by
  obtain ⟨_, h⟩ := s.answerErrorHere_shape code mt du tag; rw [h]
@[simp] theorem State.answerErrorHere_cmd (s : State) (code mt du tag : Nat) : (s.answerErrorHere code mt du tag).cmd = s.cmd := by
  obtain ⟨_, h⟩ := s.answerErrorHere_shape code mt du tag; rw [h]
@[simp] theorem State.answerErrorHere_lid (s : State) (code mt du tag : Nat) : (s.answerErrorHere code mt du tag).lid = s.lid := by
  obtain ⟨_, h⟩ := s.answerErrorHere_shape code mt du tag; rw [h]
@[simp] theorem State.answerErrorHere_integ (s : State) (code mt du tag : Nat) : (s.answerErrorHere code mt du tag).integ = s.integ := by
  obtain ⟨_, h⟩ := s.answerErrorHere_shape code mt du tag; rw [h]
@[simp] theorem State.answerErrorHere_power (s : State) (code mt du tag : Nat) : (s.answerErrorHere code mt du tag).power = s.power := by
  obtain ⟨_, h⟩ := s.answerErrorHere_shape code mt du tag; rw [h]
@[simp] theorem State.answerErrorHere_cfg (s : State) (code mt du tag : Nat) : (s.answerErrorHere code mt du tag).cfg = s.cfg := by
  obtain ⟨_, h⟩ := s.answerErrorHere_shape code mt du tag; rw [h]
@[simp] theorem State.answerErrorHere_fw (s : State) (code mt du tag : Nat) : (s.answerErrorHere code mt du tag).fw = s.fw := by
  obtain ⟨_, h⟩ := s.answerErrorHere_shape code mt du tag; rw [h]
@[simp] theorem State.answerErrorHere_side (s : State) (code mt du tag : Nat) : (s.answerErrorHere code mt du tag).side = s.side := by
  obtain ⟨_, h⟩ := s.answerErrorHere_shape code mt du tag; rw [h]
@[simp] theorem State.answerErrorHere_hostReqs (s : State) (code mt du tag : Nat) : (s.answerErrorHere code mt du tag).hostReqs = s.hostReqs := by
  obtain ⟨_, h⟩ := s.answerErrorHere_shape code mt du tag; rw [h]
@[simp] theorem State.answerErrorHere_heldMsgs (s : State) (code mt du tag : Nat) : (s.answerErrorHere code mt du tag).heldMsgs = s.heldMsgs := by
  obtain ⟨_, h⟩ := s.answerErrorHere_shape code mt du tag; rw [h]
@[simp] theorem State.answerErrorHere_core_eq (s : State) (code mt du tag : Nat) (x : Nat) : (s.answerErrorHere code mt du tag).core x = s.core x := by
  obtain ⟨_, h⟩ := s.answerErrorHere_shape code mt du tag; rw [h]; rfl
@[simp] theorem State.answerErrorHere_die_eq (s : State) (code mt du tag : Nat) (x : Nat) : (s.answerErrorHere code mt du tag).die x = s.die x := by
  obtain ⟨_, h⟩ := s.answerErrorHere_shape code mt du tag; rw [h]; rfl
@[simp] theorem State.answerErrorHere_region_eq (s : State) (code mt du tag : Nat) (x : Nat) : (s.answerErrorHere code mt du tag).region x = s.region x := by
  obtain ⟨_, h⟩ := s.answerErrorHere_shape code mt du tag; rw [h]; rfl
@[simp] theorem State.answerErrorHere_now_eq (s : State) (code mt du tag : Nat) : (s.answerErrorHere code mt du tag).now = s.now := by
  obtain ⟨_, h⟩ := s.answerErrorHere_shape code mt du tag; rw [h]; rfl
@[simp] theorem State.answerErrorHere_edge_eq (s : State) (code mt du tag : Nat) : (s.answerErrorHere code mt du tag).edge = s.edge := by
  obtain ⟨_, h⟩ := s.answerErrorHere_shape code mt du tag; rw [h]; rfl
@[simp] theorem State.answerErrorHere_pkgIdField_eq (s : State) (code mt du tag : Nat) : (s.answerErrorHere code mt du tag).pkgIdField = s.pkgIdField := by
  obtain ⟨_, h⟩ := s.answerErrorHere_shape code mt du tag; rw [h]; rfl
@[simp] theorem State.sendFabric_pending (s : State) (m : Msg) : (s.sendFabric m).pending = s.pending := by
  obtain ⟨_, _, _, h⟩ := s.sendFabric_shape m; rw [h]
@[simp] theorem State.sendFabric_freeCtr (s : State) (m : Msg) : (s.sendFabric m).freeCtr = s.freeCtr := by
  obtain ⟨_, _, _, h⟩ := s.sendFabric_shape m; rw [h]
@[simp] theorem State.sendFabric_nextTag (s : State) (m : Msg) : (s.sendFabric m).nextTag = s.nextTag := by
  obtain ⟨_, _, _, h⟩ := s.sendFabric_shape m; rw [h]
@[simp] theorem State.sendFabric_beat (s : State) (m : Msg) : (s.sendFabric m).beat = s.beat := by
  obtain ⟨_, _, _, h⟩ := s.sendFabric_shape m; rw [h]
@[simp] theorem State.sendFabric_dies (s : State) (m : Msg) : (s.sendFabric m).dies = s.dies := by
  obtain ⟨_, _, _, h⟩ := s.sendFabric_shape m; rw [h]
@[simp] theorem State.sendFabric_links (s : State) (m : Msg) : (s.sendFabric m).links = s.links := by
  obtain ⟨_, _, _, h⟩ := s.sendFabric_shape m; rw [h]
@[simp] theorem State.sendFabric_regions (s : State) (m : Msg) : (s.sendFabric m).regions = s.regions := by
  obtain ⟨_, _, _, h⟩ := s.sendFabric_shape m; rw [h]
@[simp] theorem State.sendFabric_cores (s : State) (m : Msg) : (s.sendFabric m).cores = s.cores := by
  obtain ⟨_, _, _, h⟩ := s.sendFabric_shape m; rw [h]
@[simp] theorem State.sendFabric_tongs (s : State) (m : Msg) : (s.sendFabric m).tongs = s.tongs := by
  obtain ⟨_, _, _, h⟩ := s.sendFabric_shape m; rw [h]
@[simp] theorem State.sendFabric_cmd (s : State) (m : Msg) : (s.sendFabric m).cmd = s.cmd := by
  obtain ⟨_, _, _, h⟩ := s.sendFabric_shape m; rw [h]
@[simp] theorem State.sendFabric_lid (s : State) (m : Msg) : (s.sendFabric m).lid = s.lid := by
  obtain ⟨_, _, _, h⟩ := s.sendFabric_shape m; rw [h]
@[simp] theorem State.sendFabric_integ (s : State) (m : Msg) : (s.sendFabric m).integ = s.integ := by
  obtain ⟨_, _, _, h⟩ := s.sendFabric_shape m; rw [h]
@[simp] theorem State.sendFabric_power (s : State) (m : Msg) : (s.sendFabric m).power = s.power := by
  obtain ⟨_, _, _, h⟩ := s.sendFabric_shape m; rw [h]
@[simp] theorem State.sendFabric_cfg (s : State) (m : Msg) : (s.sendFabric m).cfg = s.cfg := by
  obtain ⟨_, _, _, h⟩ := s.sendFabric_shape m; rw [h]
@[simp] theorem State.sendFabric_fw (s : State) (m : Msg) : (s.sendFabric m).fw = s.fw := by
  obtain ⟨_, _, _, h⟩ := s.sendFabric_shape m; rw [h]
@[simp] theorem State.sendFabric_side (s : State) (m : Msg) : (s.sendFabric m).side = s.side := by
  obtain ⟨_, _, _, h⟩ := s.sendFabric_shape m; rw [h]
@[simp] theorem State.sendFabric_hostReqs (s : State) (m : Msg) : (s.sendFabric m).hostReqs = s.hostReqs := by
  obtain ⟨_, _, _, h⟩ := s.sendFabric_shape m; rw [h]
@[simp] theorem State.sendFabric_heldMsgs (s : State) (m : Msg) : (s.sendFabric m).heldMsgs = s.heldMsgs := by
  obtain ⟨_, _, _, h⟩ := s.sendFabric_shape m; rw [h]
@[simp] theorem State.sendFabric_core_eq (s : State) (m : Msg) (x : Nat) : (s.sendFabric m).core x = s.core x := by
  obtain ⟨_, _, _, h⟩ := s.sendFabric_shape m; rw [h]; rfl
@[simp] theorem State.sendFabric_die_eq (s : State) (m : Msg) (x : Nat) : (s.sendFabric m).die x = s.die x := by
  obtain ⟨_, _, _, h⟩ := s.sendFabric_shape m; rw [h]; rfl
@[simp] theorem State.sendFabric_region_eq (s : State) (m : Msg) (x : Nat) : (s.sendFabric m).region x = s.region x := by
  obtain ⟨_, _, _, h⟩ := s.sendFabric_shape m; rw [h]; rfl
@[simp] theorem State.sendFabric_now_eq (s : State) (m : Msg) : (s.sendFabric m).now = s.now := by
  obtain ⟨_, _, _, h⟩ := s.sendFabric_shape m; rw [h]; rfl
@[simp] theorem State.sendFabric_edge_eq (s : State) (m : Msg) : (s.sendFabric m).edge = s.edge := by
  obtain ⟨_, _, _, h⟩ := s.sendFabric_shape m; rw [h]; rfl
@[simp] theorem State.sendFabric_pkgIdField_eq (s : State) (m : Msg) : (s.sendFabric m).pkgIdField = s.pkgIdField := by
  obtain ⟨_, _, _, h⟩ := s.sendFabric_shape m; rw [h]; rfl
@[simp] theorem State.forwardBcast_pending (s : State) (m : Msg) (k : Nat) (mi : Bool) (r : Nat) (d : Bool) : (s.forwardBcast m k mi r d).pending = s.pending := by
  obtain ⟨_, _, h⟩ := s.forwardBcast_shape m k mi r d; rw [h]
@[simp] theorem State.forwardBcast_freeCtr (s : State) (m : Msg) (k : Nat) (mi : Bool) (r : Nat) (d : Bool) : (s.forwardBcast m k mi r d).freeCtr = s.freeCtr := by
  obtain ⟨_, _, h⟩ := s.forwardBcast_shape m k mi r d; rw [h]
@[simp] theorem State.forwardBcast_nextTag (s : State) (m : Msg) (k : Nat) (mi : Bool) (r : Nat) (d : Bool) : (s.forwardBcast m k mi r d).nextTag = s.nextTag := by
  obtain ⟨_, _, h⟩ := s.forwardBcast_shape m k mi r d; rw [h]
@[simp] theorem State.forwardBcast_beat (s : State) (m : Msg) (k : Nat) (mi : Bool) (r : Nat) (d : Bool) : (s.forwardBcast m k mi r d).beat = s.beat := by
  obtain ⟨_, _, h⟩ := s.forwardBcast_shape m k mi r d; rw [h]
@[simp] theorem State.forwardBcast_dies (s : State) (m : Msg) (k : Nat) (mi : Bool) (r : Nat) (d : Bool) : (s.forwardBcast m k mi r d).dies = s.dies := by
  obtain ⟨_, _, h⟩ := s.forwardBcast_shape m k mi r d; rw [h]
@[simp] theorem State.forwardBcast_links (s : State) (m : Msg) (k : Nat) (mi : Bool) (r : Nat) (d : Bool) : (s.forwardBcast m k mi r d).links = s.links := by
  obtain ⟨_, _, h⟩ := s.forwardBcast_shape m k mi r d; rw [h]
@[simp] theorem State.forwardBcast_regions (s : State) (m : Msg) (k : Nat) (mi : Bool) (r : Nat) (d : Bool) : (s.forwardBcast m k mi r d).regions = s.regions := by
  obtain ⟨_, _, h⟩ := s.forwardBcast_shape m k mi r d; rw [h]
@[simp] theorem State.forwardBcast_cores (s : State) (m : Msg) (k : Nat) (mi : Bool) (r : Nat) (d : Bool) : (s.forwardBcast m k mi r d).cores = s.cores := by
  obtain ⟨_, _, h⟩ := s.forwardBcast_shape m k mi r d; rw [h]
@[simp] theorem State.forwardBcast_tongs (s : State) (m : Msg) (k : Nat) (mi : Bool) (r : Nat) (d : Bool) : (s.forwardBcast m k mi r d).tongs = s.tongs := by
  obtain ⟨_, _, h⟩ := s.forwardBcast_shape m k mi r d; rw [h]
@[simp] theorem State.forwardBcast_cmd (s : State) (m : Msg) (k : Nat) (mi : Bool) (r : Nat) (d : Bool) : (s.forwardBcast m k mi r d).cmd = s.cmd := by
  obtain ⟨_, _, h⟩ := s.forwardBcast_shape m k mi r d; rw [h]
@[simp] theorem State.forwardBcast_lid (s : State) (m : Msg) (k : Nat) (mi : Bool) (r : Nat) (d : Bool) : (s.forwardBcast m k mi r d).lid = s.lid := by
  obtain ⟨_, _, h⟩ := s.forwardBcast_shape m k mi r d; rw [h]
@[simp] theorem State.forwardBcast_integ (s : State) (m : Msg) (k : Nat) (mi : Bool) (r : Nat) (d : Bool) : (s.forwardBcast m k mi r d).integ = s.integ := by
  obtain ⟨_, _, h⟩ := s.forwardBcast_shape m k mi r d; rw [h]
@[simp] theorem State.forwardBcast_power (s : State) (m : Msg) (k : Nat) (mi : Bool) (r : Nat) (d : Bool) : (s.forwardBcast m k mi r d).power = s.power := by
  obtain ⟨_, _, h⟩ := s.forwardBcast_shape m k mi r d; rw [h]
@[simp] theorem State.forwardBcast_cfg (s : State) (m : Msg) (k : Nat) (mi : Bool) (r : Nat) (d : Bool) : (s.forwardBcast m k mi r d).cfg = s.cfg := by
  obtain ⟨_, _, h⟩ := s.forwardBcast_shape m k mi r d; rw [h]
@[simp] theorem State.forwardBcast_fw (s : State) (m : Msg) (k : Nat) (mi : Bool) (r : Nat) (d : Bool) : (s.forwardBcast m k mi r d).fw = s.fw := by
  obtain ⟨_, _, h⟩ := s.forwardBcast_shape m k mi r d; rw [h]
@[simp] theorem State.forwardBcast_side (s : State) (m : Msg) (k : Nat) (mi : Bool) (r : Nat) (d : Bool) : (s.forwardBcast m k mi r d).side = s.side := by
  obtain ⟨_, _, h⟩ := s.forwardBcast_shape m k mi r d; rw [h]
@[simp] theorem State.forwardBcast_hostReqs (s : State) (m : Msg) (k : Nat) (mi : Bool) (r : Nat) (d : Bool) : (s.forwardBcast m k mi r d).hostReqs = s.hostReqs := by
  obtain ⟨_, _, h⟩ := s.forwardBcast_shape m k mi r d; rw [h]
@[simp] theorem State.forwardBcast_heldMsgs (s : State) (m : Msg) (k : Nat) (mi : Bool) (r : Nat) (d : Bool) : (s.forwardBcast m k mi r d).heldMsgs = s.heldMsgs := by
  obtain ⟨_, _, h⟩ := s.forwardBcast_shape m k mi r d; rw [h]
@[simp] theorem State.forwardBcast_core_eq (s : State) (m : Msg) (k : Nat) (mi : Bool) (r : Nat) (d : Bool) (x : Nat) : (s.forwardBcast m k mi r d).core x = s.core x := by
  obtain ⟨_, _, h⟩ := s.forwardBcast_shape m k mi r d; rw [h]; rfl
@[simp] theorem State.forwardBcast_die_eq (s : State) (m : Msg) (k : Nat) (mi : Bool) (r : Nat) (d : Bool) (x : Nat) : (s.forwardBcast m k mi r d).die x = s.die x := by
  obtain ⟨_, _, h⟩ := s.forwardBcast_shape m k mi r d; rw [h]; rfl
@[simp] theorem State.forwardBcast_region_eq (s : State) (m : Msg) (k : Nat) (mi : Bool) (r : Nat) (d : Bool) (x : Nat) : (s.forwardBcast m k mi r d).region x = s.region x := by
  obtain ⟨_, _, h⟩ := s.forwardBcast_shape m k mi r d; rw [h]; rfl
@[simp] theorem State.forwardBcast_now_eq (s : State) (m : Msg) (k : Nat) (mi : Bool) (r : Nat) (d : Bool) : (s.forwardBcast m k mi r d).now = s.now := by
  obtain ⟨_, _, h⟩ := s.forwardBcast_shape m k mi r d; rw [h]; rfl
@[simp] theorem State.forwardBcast_edge_eq (s : State) (m : Msg) (k : Nat) (mi : Bool) (r : Nat) (d : Bool) : (s.forwardBcast m k mi r d).edge = s.edge := by
  obtain ⟨_, _, h⟩ := s.forwardBcast_shape m k mi r d; rw [h]; rfl
@[simp] theorem State.forwardBcast_pkgIdField_eq (s : State) (m : Msg) (k : Nat) (mi : Bool) (r : Nat) (d : Bool) : (s.forwardBcast m k mi r d).pkgIdField = s.pkgIdField := by
  obtain ⟨_, _, h⟩ := s.forwardBcast_shape m k mi r d; rw [h]; rfl
@[simp] theorem State.spreadBcast_pending (s : State) (m : Msg) (a : Option (Nat × Bool × Nat × Bool)) : (s.spreadBcast m a).pending = s.pending := by
  obtain ⟨_, _, h⟩ := s.spreadBcast_shape m a; rw [h]
@[simp] theorem State.spreadBcast_freeCtr (s : State) (m : Msg) (a : Option (Nat × Bool × Nat × Bool)) : (s.spreadBcast m a).freeCtr = s.freeCtr := by
  obtain ⟨_, _, h⟩ := s.spreadBcast_shape m a; rw [h]
@[simp] theorem State.spreadBcast_nextTag (s : State) (m : Msg) (a : Option (Nat × Bool × Nat × Bool)) : (s.spreadBcast m a).nextTag = s.nextTag := by
  obtain ⟨_, _, h⟩ := s.spreadBcast_shape m a; rw [h]
@[simp] theorem State.spreadBcast_beat (s : State) (m : Msg) (a : Option (Nat × Bool × Nat × Bool)) : (s.spreadBcast m a).beat = s.beat := by
  obtain ⟨_, _, h⟩ := s.spreadBcast_shape m a; rw [h]
@[simp] theorem State.spreadBcast_dies (s : State) (m : Msg) (a : Option (Nat × Bool × Nat × Bool)) : (s.spreadBcast m a).dies = s.dies := by
  obtain ⟨_, _, h⟩ := s.spreadBcast_shape m a; rw [h]
@[simp] theorem State.spreadBcast_links (s : State) (m : Msg) (a : Option (Nat × Bool × Nat × Bool)) : (s.spreadBcast m a).links = s.links := by
  obtain ⟨_, _, h⟩ := s.spreadBcast_shape m a; rw [h]
@[simp] theorem State.spreadBcast_regions (s : State) (m : Msg) (a : Option (Nat × Bool × Nat × Bool)) : (s.spreadBcast m a).regions = s.regions := by
  obtain ⟨_, _, h⟩ := s.spreadBcast_shape m a; rw [h]
@[simp] theorem State.spreadBcast_cores (s : State) (m : Msg) (a : Option (Nat × Bool × Nat × Bool)) : (s.spreadBcast m a).cores = s.cores := by
  obtain ⟨_, _, h⟩ := s.spreadBcast_shape m a; rw [h]
@[simp] theorem State.spreadBcast_tongs (s : State) (m : Msg) (a : Option (Nat × Bool × Nat × Bool)) : (s.spreadBcast m a).tongs = s.tongs := by
  obtain ⟨_, _, h⟩ := s.spreadBcast_shape m a; rw [h]
@[simp] theorem State.spreadBcast_cmd (s : State) (m : Msg) (a : Option (Nat × Bool × Nat × Bool)) : (s.spreadBcast m a).cmd = s.cmd := by
  obtain ⟨_, _, h⟩ := s.spreadBcast_shape m a; rw [h]
@[simp] theorem State.spreadBcast_lid (s : State) (m : Msg) (a : Option (Nat × Bool × Nat × Bool)) : (s.spreadBcast m a).lid = s.lid := by
  obtain ⟨_, _, h⟩ := s.spreadBcast_shape m a; rw [h]
@[simp] theorem State.spreadBcast_integ (s : State) (m : Msg) (a : Option (Nat × Bool × Nat × Bool)) : (s.spreadBcast m a).integ = s.integ := by
  obtain ⟨_, _, h⟩ := s.spreadBcast_shape m a; rw [h]
@[simp] theorem State.spreadBcast_power (s : State) (m : Msg) (a : Option (Nat × Bool × Nat × Bool)) : (s.spreadBcast m a).power = s.power := by
  obtain ⟨_, _, h⟩ := s.spreadBcast_shape m a; rw [h]
@[simp] theorem State.spreadBcast_cfg (s : State) (m : Msg) (a : Option (Nat × Bool × Nat × Bool)) : (s.spreadBcast m a).cfg = s.cfg := by
  obtain ⟨_, _, h⟩ := s.spreadBcast_shape m a; rw [h]
@[simp] theorem State.spreadBcast_fw (s : State) (m : Msg) (a : Option (Nat × Bool × Nat × Bool)) : (s.spreadBcast m a).fw = s.fw := by
  obtain ⟨_, _, h⟩ := s.spreadBcast_shape m a; rw [h]
@[simp] theorem State.spreadBcast_side (s : State) (m : Msg) (a : Option (Nat × Bool × Nat × Bool)) : (s.spreadBcast m a).side = s.side := by
  obtain ⟨_, _, h⟩ := s.spreadBcast_shape m a; rw [h]
@[simp] theorem State.spreadBcast_hostReqs (s : State) (m : Msg) (a : Option (Nat × Bool × Nat × Bool)) : (s.spreadBcast m a).hostReqs = s.hostReqs := by
  obtain ⟨_, _, h⟩ := s.spreadBcast_shape m a; rw [h]
@[simp] theorem State.spreadBcast_heldMsgs (s : State) (m : Msg) (a : Option (Nat × Bool × Nat × Bool)) : (s.spreadBcast m a).heldMsgs = s.heldMsgs := by
  obtain ⟨_, _, h⟩ := s.spreadBcast_shape m a; rw [h]
@[simp] theorem State.spreadBcast_core_eq (s : State) (m : Msg) (a : Option (Nat × Bool × Nat × Bool)) (x : Nat) : (s.spreadBcast m a).core x = s.core x := by
  obtain ⟨_, _, h⟩ := s.spreadBcast_shape m a; rw [h]; rfl
@[simp] theorem State.spreadBcast_die_eq (s : State) (m : Msg) (a : Option (Nat × Bool × Nat × Bool)) (x : Nat) : (s.spreadBcast m a).die x = s.die x := by
  obtain ⟨_, _, h⟩ := s.spreadBcast_shape m a; rw [h]; rfl
@[simp] theorem State.spreadBcast_region_eq (s : State) (m : Msg) (a : Option (Nat × Bool × Nat × Bool)) (x : Nat) : (s.spreadBcast m a).region x = s.region x := by
  obtain ⟨_, _, h⟩ := s.spreadBcast_shape m a; rw [h]; rfl
@[simp] theorem State.spreadBcast_now_eq (s : State) (m : Msg) (a : Option (Nat × Bool × Nat × Bool)) : (s.spreadBcast m a).now = s.now := by
  obtain ⟨_, _, h⟩ := s.spreadBcast_shape m a; rw [h]; rfl
@[simp] theorem State.spreadBcast_edge_eq (s : State) (m : Msg) (a : Option (Nat × Bool × Nat × Bool)) : (s.spreadBcast m a).edge = s.edge := by
  obtain ⟨_, _, h⟩ := s.spreadBcast_shape m a; rw [h]; rfl
@[simp] theorem State.spreadBcast_pkgIdField_eq (s : State) (m : Msg) (a : Option (Nat × Bool × Nat × Bool)) : (s.spreadBcast m a).pkgIdField = s.pkgIdField := by
  obtain ⟨_, _, h⟩ := s.spreadBcast_shape m a; rw [h]; rfl
@[simp] theorem State.broadcast_pending (s : State) (lo hi : Nat) (b : Body) : (s.broadcast lo hi b).pending = s.pending := by
  obtain ⟨_, _, h⟩ := s.broadcast_shape lo hi b; rw [h]
@[simp] theorem State.broadcast_freeCtr (s : State) (lo hi : Nat) (b : Body) : (s.broadcast lo hi b).freeCtr = s.freeCtr := by
  obtain ⟨_, _, h⟩ := s.broadcast_shape lo hi b; rw [h]
@[simp] theorem State.broadcast_nextTag (s : State) (lo hi : Nat) (b : Body) : (s.broadcast lo hi b).nextTag = s.nextTag := by
  obtain ⟨_, _, h⟩ := s.broadcast_shape lo hi b; rw [h]
@[simp] theorem State.broadcast_beat (s : State) (lo hi : Nat) (b : Body) : (s.broadcast lo hi b).beat = s.beat := by
  obtain ⟨_, _, h⟩ := s.broadcast_shape lo hi b; rw [h]
@[simp] theorem State.broadcast_dies (s : State) (lo hi : Nat) (b : Body) : (s.broadcast lo hi b).dies = s.dies := by
  obtain ⟨_, _, h⟩ := s.broadcast_shape lo hi b; rw [h]
@[simp] theorem State.broadcast_links (s : State) (lo hi : Nat) (b : Body) : (s.broadcast lo hi b).links = s.links := by
  obtain ⟨_, _, h⟩ := s.broadcast_shape lo hi b; rw [h]
@[simp] theorem State.broadcast_regions (s : State) (lo hi : Nat) (b : Body) : (s.broadcast lo hi b).regions = s.regions := by
  obtain ⟨_, _, h⟩ := s.broadcast_shape lo hi b; rw [h]
@[simp] theorem State.broadcast_cores (s : State) (lo hi : Nat) (b : Body) : (s.broadcast lo hi b).cores = s.cores := by
  obtain ⟨_, _, h⟩ := s.broadcast_shape lo hi b; rw [h]
@[simp] theorem State.broadcast_tongs (s : State) (lo hi : Nat) (b : Body) : (s.broadcast lo hi b).tongs = s.tongs := by
  obtain ⟨_, _, h⟩ := s.broadcast_shape lo hi b; rw [h]
@[simp] theorem State.broadcast_cmd (s : State) (lo hi : Nat) (b : Body) : (s.broadcast lo hi b).cmd = s.cmd := by
  obtain ⟨_, _, h⟩ := s.broadcast_shape lo hi b; rw [h]
@[simp] theorem State.broadcast_lid (s : State) (lo hi : Nat) (b : Body) : (s.broadcast lo hi b).lid = s.lid := by
  obtain ⟨_, _, h⟩ := s.broadcast_shape lo hi b; rw [h]
@[simp] theorem State.broadcast_integ (s : State) (lo hi : Nat) (b : Body) : (s.broadcast lo hi b).integ = s.integ := by
  obtain ⟨_, _, h⟩ := s.broadcast_shape lo hi b; rw [h]
@[simp] theorem State.broadcast_power (s : State) (lo hi : Nat) (b : Body) : (s.broadcast lo hi b).power = s.power := by
  obtain ⟨_, _, h⟩ := s.broadcast_shape lo hi b; rw [h]
@[simp] theorem State.broadcast_cfg (s : State) (lo hi : Nat) (b : Body) : (s.broadcast lo hi b).cfg = s.cfg := by
  obtain ⟨_, _, h⟩ := s.broadcast_shape lo hi b; rw [h]
@[simp] theorem State.broadcast_fw (s : State) (lo hi : Nat) (b : Body) : (s.broadcast lo hi b).fw = s.fw := by
  obtain ⟨_, _, h⟩ := s.broadcast_shape lo hi b; rw [h]
@[simp] theorem State.broadcast_side (s : State) (lo hi : Nat) (b : Body) : (s.broadcast lo hi b).side = s.side := by
  obtain ⟨_, _, h⟩ := s.broadcast_shape lo hi b; rw [h]
@[simp] theorem State.broadcast_hostReqs (s : State) (lo hi : Nat) (b : Body) : (s.broadcast lo hi b).hostReqs = s.hostReqs := by
  obtain ⟨_, _, h⟩ := s.broadcast_shape lo hi b; rw [h]
@[simp] theorem State.broadcast_heldMsgs (s : State) (lo hi : Nat) (b : Body) : (s.broadcast lo hi b).heldMsgs = s.heldMsgs := by
  obtain ⟨_, _, h⟩ := s.broadcast_shape lo hi b; rw [h]
@[simp] theorem State.broadcast_core_eq (s : State) (lo hi : Nat) (b : Body) (x : Nat) : (s.broadcast lo hi b).core x = s.core x := by
  obtain ⟨_, _, h⟩ := s.broadcast_shape lo hi b; rw [h]; rfl
@[simp] theorem State.broadcast_die_eq (s : State) (lo hi : Nat) (b : Body) (x : Nat) : (s.broadcast lo hi b).die x = s.die x := by
  obtain ⟨_, _, h⟩ := s.broadcast_shape lo hi b; rw [h]; rfl
@[simp] theorem State.broadcast_region_eq (s : State) (lo hi : Nat) (b : Body) (x : Nat) : (s.broadcast lo hi b).region x = s.region x := by
  obtain ⟨_, _, h⟩ := s.broadcast_shape lo hi b; rw [h]; rfl
@[simp] theorem State.broadcast_now_eq (s : State) (lo hi : Nat) (b : Body) : (s.broadcast lo hi b).now = s.now := by
  obtain ⟨_, _, h⟩ := s.broadcast_shape lo hi b; rw [h]; rfl
@[simp] theorem State.broadcast_edge_eq (s : State) (lo hi : Nat) (b : Body) : (s.broadcast lo hi b).edge = s.edge := by
  obtain ⟨_, _, h⟩ := s.broadcast_shape lo hi b; rw [h]; rfl
@[simp] theorem State.broadcast_pkgIdField_eq (s : State) (lo hi : Nat) (b : Body) : (s.broadcast lo hi b).pkgIdField = s.pkgIdField := by
  obtain ⟨_, _, h⟩ := s.broadcast_shape lo hi b; rw [h]; rfl

end Sys2Proof.Machine
end

