-- ==== Sys2Proof/Laws/Log.lean ====
section
/-!
SUPPORT. The log ring: what writing a record does to its order.
-/

namespace Sys2Proof.Machine

open Sys2Proof

/-- A log that keeps its ring and HLT_LOG_NEXT keeps its order. -/
theorem LogSt.ringOk_congr {l k : LogSt} (hr : k.ring = l.ring) (hn : k.next = l.next) (h : l.ringOk) : k.ringOk := by
  unfold LogSt.ringOk at *; rw [hr, hn]; exact h

@[simp] theorem LogSt.roll_ring (l : LogSt) (now : Nat) : (l.roll now).ring = l.ring := by
  unfold LogSt.roll; split <;> rfl
@[simp] theorem LogSt.roll_next (l : LogSt) (now : Nat) : (l.roll now).next = l.next := by
  unfold LogSt.roll; split <;> rfl

/-- The newest record is written before the others, of which the oldest may go (R491, R492). -/
theorem LogSt.ringOk_push {l k : LogSt} (r : LogRec) (hr : k.ring = (r :: l.ring).take 4096) (hs : r.seq = l.next)
    (hn : k.next = l.next + 1) (h : l.ringOk) : k.ringOk := by
  obtain ⟨_, h2, h3⟩ := h
  refine ⟨by rw [hr, List.length_take]; omega, by rw [hr, hn, List.length_take, List.length_cons]; omega, ?_⟩
  intro i x hx
  rw [hr, List.getElem?_take] at hx
  split at hx
  · cases i with
    | zero => rw [List.getElem?_cons_zero] at hx; cases hx; omega
    | succ j => rw [List.getElem?_cons_succ] at hx; have := h3 j x hx; omega
  · cases hx

/-- A message for the host leaves the log as it is. -/
@[simp] theorem State.sendHost_log (s : State) (u tag : Nat) (b : Body) : (s.sendHost u tag b).log = s.log := by
  obtain ⟨_, h⟩ := s.sendHost_shape u tag b; rw [h]

/-- A code that occurs keeps the ring in order, written or suppressed (R491, R495). -/
theorem State.logEv_ringOk (s : State) (e : LogEv) (h : s.log.ringOk) : (s.logEv e).log.ringOk := by
  have hr : (s.log.roll s.now).ringOk := LogSt.ringOk_congr (by simp) (by simp) h
  unfold State.logEv
  dsimp only
  split
  · exact LogSt.ringOk_congr rfl rfl hr
  · split
    · rw [State.sendHost_log]
      exact LogSt.ringOk_push _ rfl rfl rfl hr
    · exact LogSt.ringOk_push _ rfl rfl rfl hr

end Sys2Proof.Machine
end

