-- ==== Sys2Proof/Laws/Mem.lean ====
section
/-!
SUPPORT. Byte stores: a read after a write, and the canonical form that every operation keeps.
-/

namespace Sys2Proof.Machine

open Sys2Proof

/-! ## Cells -/

theorem findCell_insert_self (l : List Host.Cell) (a : Nat) (v : Byte) : findCell (insertCell l a v) a = some v := by
  induction l with
  | nil => simp [insertCell, findCell]
  | cons c r ih =>
    obtain ⟨x, y⟩ := c
    by_cases h1 : a < x
    · simp [insertCell, h1, findCell]
    · by_cases h2 : a = x
      · subst h2; simp [insertCell, findCell]
      · have h3 : ¬x = a := fun h => h2 h.symm
        simp [insertCell, h1, h2, findCell, h3, ih]

theorem findCell_insert_ne (l : List Host.Cell) (a x : Nat) (v : Byte) (h : x ≠ a) :
    findCell (insertCell l a v) x = findCell l x := by
  induction l with
  | nil => simp [insertCell, findCell, Ne.symm h]
  | cons c r ih =>
    obtain ⟨k, y⟩ := c
    by_cases h1 : a < k
    · simp [insertCell, h1, findCell, Ne.symm h]
    · by_cases h2 : a = k
      · subst h2; simp [insertCell, findCell, Ne.symm h]
      · simp [insertCell, h1, h2, findCell, ih]

theorem findCell_erase_ne (l : List Host.Cell) (a x : Nat) (h : x ≠ a) : findCell (eraseCell l a) x = findCell l x := by
  induction l with
  | nil => rfl
  | cons c r ih =>
    obtain ⟨k, y⟩ := c
    by_cases h2 : k = a
    · subst h2; simp [eraseCell, findCell, Ne.symm h]
    · simp [eraseCell, h2, findCell, ih]

theorem risingFrom_mono (l : List Host.Cell) (a b : Nat) (h : a ≤ b) (hr : risingFrom b l = true) : risingFrom a l = true := by
  cases l with
  | nil => rfl
  | cons c r =>
    obtain ⟨k, y⟩ := c
    simp only [risingFrom, Bool.and_eq_true, decide_eq_true_eq] at hr ⊢
    exact ⟨by omega, hr.2⟩

theorem findCell_rising (l : List Host.Cell) (a x : Nat) (hr : risingFrom a l = true) (h : x < a) : findCell l x = none := by
  induction l generalizing a with
  | nil => rfl
  | cons c r ih =>
    obtain ⟨k, y⟩ := c
    simp only [risingFrom, Bool.and_eq_true, decide_eq_true_eq] at hr
    rw [findCell, if_neg (by omega)]
    exact ih (k + 1) hr.2 (by omega)

theorem findCell_erase_self (l : List Host.Cell) (lo a : Nat) (hr : risingFrom lo l = true) : findCell (eraseCell l a) a = none := by
  induction l generalizing lo with
  | nil => rfl
  | cons c r ih =>
    obtain ⟨k, y⟩ := c
    simp only [risingFrom, Bool.and_eq_true, decide_eq_true_eq] at hr
    by_cases h2 : k = a
    · subst h2; rw [eraseCell, if_pos rfl]; exact findCell_rising r (k + 1) k hr.2 (by omega)
    · rw [eraseCell, if_neg h2, findCell, if_neg h2]; exact ih (k + 1) hr.2

theorem risingFrom_erase (l : List Host.Cell) (lo a : Nat) (hr : risingFrom lo l = true) : risingFrom lo (eraseCell l a) = true := by
  induction l generalizing lo with
  | nil => rfl
  | cons c r ih =>
    obtain ⟨k, y⟩ := c
    simp only [risingFrom, Bool.and_eq_true, decide_eq_true_eq] at hr
    by_cases h2 : k = a
    · rw [eraseCell, if_pos h2]; exact risingFrom_mono r lo (k + 1) (by omega) hr.2
    · rw [eraseCell, if_neg h2]
      simp only [risingFrom, Bool.and_eq_true, decide_eq_true_eq]
      exact ⟨hr.1, ih (k + 1) hr.2⟩

theorem risingFrom_insert (l : List Host.Cell) (lo a : Nat) (v : Byte) (hl : lo ≤ a) (hr : risingFrom lo l = true) :
    risingFrom lo (insertCell l a v) = true := by
  induction l generalizing lo with
  | nil => simp [insertCell, risingFrom, hl]
  | cons c r ih =>
    obtain ⟨k, y⟩ := c
    simp only [risingFrom, Bool.and_eq_true, decide_eq_true_eq] at hr
    by_cases h1 : a < k
    · simp only [insertCell, h1, if_true, risingFrom, Bool.and_eq_true, decide_eq_true_eq]
      exact ⟨hl, by omega, hr.2⟩
    · by_cases h2 : a = k
      · subst h2
        simp only [insertCell, h1, if_false, if_true, risingFrom, Bool.and_eq_true, decide_eq_true_eq]
        exact ⟨hl, hr.2⟩
      · simp only [insertCell, h1, h2, if_false, risingFrom, Bool.and_eq_true, decide_eq_true_eq]
        exact ⟨hr.1, ih (k + 1) (by omega) hr.2⟩

theorem all_erase (l : List Host.Cell) (a : Nat) (p : Host.Cell → Bool) (h : l.all p = true) : (eraseCell l a).all p = true := by
  induction l with
  | nil => rfl
  | cons c r ih =>
    obtain ⟨k, y⟩ := c
    simp only [List.all_cons, Bool.and_eq_true] at h
    by_cases h2 : k = a
    · rw [eraseCell, if_pos h2]; exact h.2
    · rw [eraseCell, if_neg h2]; simp only [List.all_cons, Bool.and_eq_true]; exact ⟨h.1, ih h.2⟩

theorem all_insert (l : List Host.Cell) (a : Nat) (v : Byte) (p : Host.Cell → Bool) (hv : p (a, v) = true) (h : l.all p = true) :
    (insertCell l a v).all p = true := by
  induction l with
  | nil => simp [insertCell, hv]
  | cons c r ih =>
    obtain ⟨k, y⟩ := c
    simp only [List.all_cons, Bool.and_eq_true] at h
    by_cases h1 : a < k
    · simp only [insertCell, h1, if_true, List.all_cons, Bool.and_eq_true]; exact ⟨hv, h.1, h.2⟩
    · by_cases h2 : a = k
      · subst h2
        rw [insertCell, if_neg h1, if_pos rfl]; simp only [List.all_cons, Bool.and_eq_true]; exact ⟨hv, h.2⟩
      · simp only [insertCell, h1, h2, if_false, List.all_cons, Bool.and_eq_true]; exact ⟨h.1, ih h.2⟩

/-! ## One byte -/

@[simp] theorem Mem.write_base (m : Mem) (a : Nat) (v : Byte) : (m.write a v).base = m.base := by
  unfold Mem.write; split <;> rfl

@[simp] theorem Mem.write_unlisted (m : Mem) (a x : Nat) (v : Byte) : (m.write a v).unlisted x = m.unlisted x := by
  simp [Mem.unlisted]

/-- A write keeps the canonical form. -/
theorem Mem.write_wf (m : Mem) (a : Nat) (v : Byte) (h : m.wf = true) : (m.write a v).wf = true := by
  simp only [Mem.wf, Bool.and_eq_true] at h ⊢
  simp only [Mem.write_unlisted]
  unfold Mem.write
  split
  · exact ⟨risingFrom_erase _ _ _ h.1, all_erase _ _ _ h.2⟩
  · rename_i hv
    exact ⟨risingFrom_insert _ _ _ _ (Nat.zero_le _) h.1, all_insert _ _ _ _ (by simpa using hv) h.2⟩

/-- A byte written reads back. -/
theorem Mem.read_write_self (m : Mem) (a : Nat) (v : Byte) (h : m.wf = true) : (m.write a v).read a = v := by
  simp only [Mem.wf, Bool.and_eq_true] at h
  unfold Mem.read
  rw [Mem.write_unlisted]
  unfold Mem.write
  split
  · rename_i hv
    simp only [findCell_erase_self _ _ _ h.1, Option.getD_none, hv]
  · simp only [findCell_insert_self, Option.getD_some]

/-- A write leaves every other byte alone. -/
theorem Mem.read_write_ne (m : Mem) (a x : Nat) (v : Byte) (h : x ≠ a) : (m.write a v).read x = m.read x := by
  unfold Mem.read
  rw [Mem.write_unlisted]
  unfold Mem.write
  split
  · simp only [findCell_erase_ne _ _ _ h]
  · simp only [findCell_insert_ne _ _ _ _ h]

/-! ## Runs of bytes -/

theorem Mem.writeN_wf (m : Mem) (a : Nat) (bs : List Byte) (h : m.wf = true) : (m.writeN a bs).wf = true := by
  induction bs generalizing m a with
  | nil => exact h
  | cons b r ih => exact ih _ _ (Mem.write_wf m a b h)

theorem Mem.writeLE_wf (m : Mem) (a n v : Nat) (h : m.wf = true) : (m.writeLE a n v).wf = true := Mem.writeN_wf _ _ _ h

/-- Bytes outside a run that is written keep their value. -/
theorem Mem.read_writeN_out (m : Mem) (a x : Nat) (bs : List Byte) (h : x < a ∨ a + bs.length ≤ x) :
    (m.writeN a bs).read x = m.read x := by
  induction bs generalizing m a with
  | nil => rfl
  | cons b r ih =>
    simp only [List.length_cons] at h
    rw [Mem.writeN, ih _ _ (by omega), Mem.read_write_ne _ _ _ _ (by omega)]

/-- A run that is written reads back. -/
theorem Mem.readN_writeN_self (m : Mem) (a : Nat) (bs : List Byte) (h : m.wf = true) :
    (m.writeN a bs).readN a bs.length = bs := by
  induction bs generalizing m a with
  | nil => rfl
  | cons b r ih =>
    rw [Mem.writeN, List.length_cons, Mem.readN, ih _ _ (Mem.write_wf m a b h), Mem.read_writeN_out _ _ _ _ (by omega),
      Mem.read_write_self _ _ _ h]

theorem leBytes_length (n v : Nat) : (leBytes n v).length = n := by
  induction n generalizing v with
  | zero => rfl
  | succ k ih => simp [leBytes, ih]

theorem ofLE_leBytes (n v : Nat) : ofLE (leBytes n v) = v % 256 ^ n := by
  induction n generalizing v with
  | zero => simp [leBytes, ofLE, Nat.mod_one]
  | succ k ih =>
    have h1 : (toB v).toNat = v % 256 := by simp [toB]
    have h2 : 256 ^ (k + 1) = 256 * 256 ^ k := by rw [Nat.pow_succ, Nat.mul_comm]
    rw [leBytes, ofLE, ih, h1, h2, Nat.mod_mul]

/-- A number that is written reads back. -/
theorem Mem.readLE_writeLE_self (m : Mem) (a n v : Nat) (h : m.wf = true) : (m.writeLE a n v).readLE a n = v % 256 ^ n := by
  unfold Mem.readLE Mem.writeLE
  have := Mem.readN_writeN_self m a (leBytes n v) h
  rw [leBytes_length] at this
  rw [this, ofLE_leBytes]

theorem Mem.read_writeLE_out (m : Mem) (a n v x : Nat) (h : x < a ∨ a + n ≤ x) : (m.writeLE a n v).read x = m.read x :=
  Mem.read_writeN_out _ _ _ _ (by rwa [leBytes_length])

theorem Mem.zero_wf : Mem.zero.wf = true := rfl

theorem Mem.undef_wf (k : Nat) : (Mem.undef k).wf = true := rfl

end Sys2Proof.Machine
end

