-- ==== Sys2Proof/Laws/Sequencer.lean ====
section
/-!
SUPPORT. Cores after a change, and a core that goes as far as it can when its engines have no work: everything that one
sequencer instruction does.
-/

namespace Sys2Proof.Machine

open Sys2Proof

/-! ## A core after a change -/

@[simp] theorem State.core_setCore (s : State) (n : Nat) (c : CoreSt) (h : n < 192) : (s.setCore n c).core n = c :=
  vget_vset_self _ _ _ h

@[simp] theorem State.core_modCore (s : State) (n : Nat) (f : CoreSt → CoreSt) (h : n < 192) :
    (s.modCore n f).core n = f (s.core n) := vget_vset_self _ _ _ h

theorem State.core_modCore_ne (s : State) (n m : Nat) (f : CoreSt → CoreSt) (h : n ≠ m) :
    (s.modCore n f).core m = s.core m := vget_vset_ne _ _ _ _ h

/-- Two changes of one core are one. -/
theorem State.modCore_modCore (s : State) (n : Nat) (f g : CoreSt → CoreSt) :
    (s.modCore n f).modCore n g = s.modCore n fun c => g (f c) := by
  exact congrArg (fun v => { s with cores := v }) (vmod_vmod s.cores n f g)

/-- A change that leaves the core as it is changes nothing. -/
theorem State.modCore_id (s : State) (n : Nat) (f : CoreSt → CoreSt) (h : f (s.core n) = s.core n) : s.modCore n f = s := by
  unfold State.modCore State.setCore
  rw [h]; unfold State.core; rw [vset_vget]

/-- Changes that agree on the core are equal. -/
theorem State.modCore_congr (s : State) (n : Nat) (f g : CoreSt → CoreSt) (h : f (s.core n) = g (s.core n)) :
    s.modCore n f = s.modCore n g := by
  unfold State.modCore; rw [h]

/-! ## Engines with no work -/

theorem CoreSt.enginesIdle_queue (c : CoreSt) (h : c.enginesIdle = true) (i : Nat) : vget c.queues i = [] := by
  by_cases hi : i < 5
  · simp only [CoreSt.enginesIdle, Bool.and_eq_true] at h
    simpa using vget_of_all _ _ h.1.1.1.1.1 i hi
  · exact vget_out _ _ (by omega)

theorem CoreSt.enginesIdle_flight (c : CoreSt) (h : c.enginesIdle = true) (i : Nat) : vget c.flights i = [] := by
  by_cases hi : i < 5
  · simp only [CoreSt.enginesIdle, Bool.and_eq_true] at h
    simpa using vget_of_all _ _ h.1.1.1.1.2 i hi
  · exact vget_out _ _ (by omega)

theorem CoreSt.enginesIdle_streams (c : CoreSt) (h : c.enginesIdle = true) : c.sm.xfers = [] ∧ c.sm.cols = [] := by
  simp only [CoreSt.enginesIdle, Bool.and_eq_true, List.isEmpty_iff] at h
  exact ⟨h.1.1.1.2, h.1.1.2⟩

theorem CoreSt.enginesIdle_sigs (c : CoreSt) (h : c.enginesIdle = true) : c.sigs = [] := by
  simp only [CoreSt.enginesIdle, Bool.and_eq_true, List.isEmpty_iff] at h
  exact h.1.2

theorem CoreSt.enginesIdle_race (c : CoreSt) (h : c.enginesIdle = true) (i : Nat) (hi : i < 4) :
    (vget c.races i).st ≠ .pending := by
  simp only [CoreSt.enginesIdle, Bool.and_eq_true] at h
  simpa using vget_of_all _ _ h.2 i hi

/-- With no race pending, no deadline passes. -/
theorem State.passDeadlines_idle (s : State) (n : Nat) (h : (s.core n).enginesIdle = true) : s.passDeadlines n = s := by
  have r := fun i hi => CoreSt.enginesIdle_race _ h i hi
  unfold State.passDeadlines
  simp [List.range, List.range.loop, r 0 (by omega), r 1 (by omega), r 2 (by omega), r 3 (by omega)]

/-- With nothing in execution, nothing completes. -/
theorem State.drain_idle (s : State) (n : Nat) (h : (s.core n).enginesIdle = true) : s.drain n = s := by
  have f := fun i => CoreSt.enginesIdle_flight _ h i
  simp [State.drain, f, State.drainQ]

/-- With no transfer and no Colander instruction, no granule issues. -/
theorem State.pumpN_idle (s : State) (n : Nat) (hx : (s.core n).sm.xfers = []) (hc : (s.core n).sm.cols = []) :
    s.pumpN n = s := by
  have hr : s.ladleRead n = s := by simp [State.ladleRead, hx]
  have hl : ∀ t, s.ladleIssue n t = (false, s) := by intro t; simp [State.ladleIssue, StreamSt.ladleWant, hx]
  have hcw : ∀ t, s.colIssue n t = (false, s) := by intro t; simp [State.colIssue, State.colWant, hc]
  unfold State.pumpN State.pumpStreams
  split
  · rfl
  · simp only [hr]
    split
    · rfl
    · simp [hl, hcw]

/-- With empty queues, no head begins. -/
theorem State.headStep_idle (s : State) (n q : Nat) (h : vget (s.core n).queues (q - 1) = []) : s.headStep n q = none := by
  simp [State.headStep, h]

/-- No head begins in the queues listed when they are empty. -/
theorem State.heads_idle (s : State) (n : Nat) (qs : List Nat) (h0 : 0 ∉ qs) (hq : ∀ i, vget (s.core n).queues i = []) :
    s.heads n qs = (false, s) := by
  have hh := fun q => State.headStep_idle s n q (hq _)
  induction qs with
  | nil => rfl
  | cons q qs ih =>
    have h1 : q ≠ 0 := fun h => h0 (by simp [h])
    have h2 := ih (fun h => h0 (List.mem_cons_of_mem _ h))
    unfold State.heads at h2 ⊢
    rw [List.foldl_cons]
    split <;> simp_all

/-- A pass in which the sequencer's instruction begins and the engine queues are empty after it. -/
theorem State.pass_seq (s t : State) (n : Nat) (hb : (s.core n).busy = true) (hg : (s.core n).sigs = [])
    (hs : s.seqStep n = some t) (hq : ∀ i, vget (t.core n).queues i = []) : s.pass n = (true, t) := by
  unfold State.pass
  simp only [hg]
  cases (s.core n).tokenFirst
  · have := State.heads_idle t n [1, 2, 3, 4, 5] (by decide) hq
    unfold State.heads at this ⊢
    simp_all [State.applySigs, State.headStep_idle _ _ _ (hq _)]
  · simp [State.applySigs, hs, State.heads_idle t n [1, 2, 3, 4, 5] (by decide) hq]

/-- A pass in which nothing begins. -/
theorem State.pass_none (s : State) (n : Nat) (hg : (s.core n).sigs = []) (hc : (s.core n).cur = none)
    (hq : ∀ i, vget (s.core n).queues i = []) : s.pass n = (false, s) := by
  have hs : s.seqStep n = none := by simp [State.seqStep, hc]
  have ht : (s.core n).tokenFirst = false := by simp [CoreSt.tokenFirst, hc]
  simp [State.pass, hg, ht, State.applySigs, State.heads, hs, State.headStep_idle _ _ _ (hq _)]

/-- The signals that are still to act have acted. -/
def State.landed (s : State) (n : Nat) : State :=
  (if (s.core n).sigs = [] then s else s.modCore n fun c => { c with sigs := [] }).applySigs n (s.core n).sigs

/-- A core with no instruction and empty queues goes no further than its signals. -/
theorem State.passes_landed (s : State) (n k : Nat) (hc : (s.core n).cur = none) (hq : ∀ i, vget (s.core n).queues i = [])
    (hc' : ((s.landed n).core n).cur = none) (hq' : ∀ i, vget ((s.landed n).core n).queues i = [])
    (hg' : ((s.landed n).core n).sigs = []) : State.passes (k + 2) n s = s.landed n := by
  have hs : s.seqStep n = none := by simp [State.seqStep, hc]
  have ht : (s.core n).tokenFirst = false := by simp [CoreSt.tokenFirst, hc]
  by_cases hg : (s.core n).sigs = []
  · have h1 := State.pass_none s n hg hc hq
    have h2 : s.landed n = s := by simp [State.landed, hg, State.applySigs]
    rw [State.passes]; simp [h1, h2]
  · have hs' : (s.landed n).seqStep n = none := by simp [State.seqStep, hc']
    have h1 : s.pass n = (true, s.landed n) := by
      have e : s.pass n = (!((s.core n).sigs.isEmpty) || ((s.landed n).heads n [0, 1, 2, 3, 4, 5]).1,
          ((s.landed n).heads n [0, 1, 2, 3, 4, 5]).2) := by
        unfold State.pass State.landed
        simp only [ht]
        simp
      have h2 : (s.landed n).heads n [0, 1, 2, 3, 4, 5] = (false, s.landed n) := by
        simp [State.heads, hs', State.headStep_idle _ _ _ (hq' _)]
      rw [e, h2]; simp [hg]
    rw [State.passes]; simp only [h1]
    rw [State.passes, State.pass_none _ n hg' hc' hq']
    rfl

theorem State.seqStep_none (s : State) (n : Nat) (h : (s.core n).cur = none) : s.seqStep n = none := by
  simp [State.seqStep, h]

/-! ## One sequencer instruction -/

/-- A signal that fits raises its counter in the next cycle (R81, R82). -/
theorem State.signal_lands (s : State) (n tk v q pc : Nat) (hn : n < 192) (hb : (s.core n).busy = true)
    (hg : (s.core n).sigs = []) (hf : vget (s.core n).t tk + v ≤ 65535) :
    (s.signal n tk v q pc).landed n = s.modCore n fun c => c.setTok tk (vget c.t tk + v) := by
  unfold State.signal
  simp only [hb, Bool.true_eq_false, or_false]
  split
  · subst_vars
    rw [State.modCore_id _ _ _ (by simp [CoreSt.setTok])]
    simp [State.landed, hg, State.applySigs]
  · unfold State.landed
    rw [State.core_modCore _ _ _ hn]
    simp only [hg, List.nil_append, if_neg (List.cons_ne_nil _ _), State.applySigs, List.foldl_cons, List.foldl_nil]
    unfold State.applySig
    rw [State.modCore_modCore, State.core_modCore _ _ _ hn]
    have hb' : CoreSt.busy { s.core n with sigs := [] } = true := hb
    rw [if_neg (by simp only [hb']; simp), if_neg (by show ¬ 65535 < vget (s.core n).t tk + v; omega), State.modCore_modCore]
    apply State.modCore_congr
    revert hg
    cases s.core n
    rintro rfl
    rfl

/-- The end of a sequencer instruction whose signal fits (R81). -/
theorem State.seqDone_lands (s : State) (n : Nat) (e : Entry) (pc : Nat) (hn : n < 192) (hb : (s.core n).busy = true)
    (hg : (s.core n).sigs = []) (hf : (s.core n).signalFits e.h = true) :
    (s.seqDone n e pc true).landed n = s.modCore n fun c => ({ c with cur := none, progress := true }).passed e.h pc := by
  unfold State.seqDone
  simp only [if_true]
  have hf' : vget (s.core n).t e.h.stok.toNat + e.h.sval.toNat ≤ 65535 := by simpa [CoreSt.signalFits] using hf
  rw [State.signal_lands _ _ _ _ _ _ hn (by rw [State.core_modCore _ _ _ hn]; exact hb)
    (by rw [State.core_modCore _ _ _ hn]; exact hg) (by rw [State.core_modCore _ _ _ hn]; exact hf'), State.modCore_modCore]
  rfl

/-- What a sequencer instruction leaves until its signal acts: no current instruction, and the queues as they were. -/
theorem State.seqDone_core (s : State) (n : Nat) (e : Entry) (pc : Nat) (sig : Bool) (hn : n < 192) :
    ((s.seqDone n e pc sig).core n).cur = none ∧ ((s.seqDone n e pc sig).core n).queues = (s.core n).queues := by
  unfold State.seqDone
  simp only []
  generalize hs1 : s.modCore n _ = s1
  have h1 : (s1.core n).cur = none ∧ (s1.core n).queues = (s.core n).queues := by
    rw [← hs1, State.core_modCore _ _ _ hn]; exact ⟨rfl, rfl⟩
  have h2 : ∀ tk v q p, ((s1.signal n tk v q p).core n).cur = none ∧ ((s1.signal n tk v q p).core n).queues = (s.core n).queues := by
    intro tk v q p
    unfold State.signal
    by_cases hx : v = 0 ∨ (s1.core n).busy = false
    · rw [if_pos hx]; exact h1
    · rw [if_neg hx, State.core_modCore _ _ _ hn]; exact h1
  cases sig
  · exact h1
  · exact h2 _ _ _ _

/-- The header once its waits are met. -/
def hdrMet (h : Hdr) : Hdr := { h with wval := 0, nb := 0 }

/-- The entry whose waits are met. -/
def entryMet (e : Entry) : Entry := { e with h := hdrMet e.h }

/-- The state as a sequencer instruction takes effect: its waits met, its line the most recently used. -/
def State.dispatched (s : State) (n op : Nat) (h : Hdr) (b : Word) : State :=
  s.modCore n fun c => { c.taken h with cur := some (entryMet (s.entryAt n 0 op h b)) }

/-- Passes end when the first leaves nothing that can begin. -/
theorem State.passes_one (s t : State) (n k : Nat) (hp : s.pass n = (true, t)) (ht : t.pass n = (false, t)) :
    State.passes (k + 2) n s = t := by
  simp [State.passes, hp, ht]

/-- The fields that dispatch does not touch. -/
theorem State.dispatched_core (s : State) (n op : Nat) (h : Hdr) (b : Word) (hn : n < 192) :
    (s.dispatched n op h b).core n = { (s.core n).taken h with cur := some (entryMet (s.entryAt n 0 op h b)) } := by
  simp [State.dispatched, hn]

/-- A ready instruction is fetched and settles: what is left of State.instr (R74 to R78). -/
theorem State.instr_fetch (s : State) (n q op : Nat) (h : Hdr) (b : Word) (hf : s.fetchesNow n q op h b = true)
    (hb : q = 0 → seqBad (s.entryAt n q op h b) = false) (h5 : q ≤ 5) :
    s.instr n q op h b = (s.modCore n fun c => { c.fetched with cur := some (s.entryAt n q op h b), progress := true }).settle n := by
  simp only [State.fetchesNow, Bool.and_eq_true, decide_eq_true_eq, beq_iff_eq] at hf
  obtain ⟨⟨⟨⟨⟨hn, hst⟩, hcur⟩, hpc⟩, hline⟩, hword⟩ := hf
  have hfetch : (s.core n).fetches = true := by simp [CoreSt.fetches, hst, hcur]
  unfold State.instr
  simp only []
  rw [if_neg (by simp [hfetch]), if_neg (by omega), if_neg (by simp [hline]), if_pos hword]
  unfold State.current
  simp only []
  rw [if_neg (by
    rintro (⟨h1, h2⟩ | h2)
    · exact absurd ((hb h1).symm.trans h2) (by simp)
    · omega)]
  rw [State.modCore_modCore]
  rfl

/-- A sequencer instruction that is ready, and whose operation does not wait, takes effect in the step that fetches it,
and nothing else happens when its effect and its signal leave the core with no instruction and empty queues (R76 to R82). -/
theorem State.instr_ready (s t0 t : State) (n op : Nat) (h : Hdr) (b : Word) (hr : s.seqReady n op h b = true)
    (hp : s.predOn n h = true) (hw : ((s.dispatched n op h b).core n).opWaits (entryMet (s.entryAt n 0 op h b)) = false)
    (ht : (s.dispatched n op h b).seqOp n (entryMet (s.entryAt n 0 op h b)) = t0) (hl : t0.landed n = t)
    (hc : (t0.core n).cur = none) (hq : ∀ i, vget (t0.core n).queues i = [])
    (hc' : (t.core n).cur = none) (hq' : ∀ i, vget (t.core n).queues i = []) (hg' : (t.core n).sigs = []) :
    s.instr n 0 op h b = t := by
  simp only [State.seqReady, State.waitsMet, Bool.and_eq_true, Bool.not_eq_true', decide_eq_true_eq, beq_iff_eq,
    Bool.or_eq_true] at hr
  obtain ⟨⟨⟨⟨hfetch, hbad⟩, hnb, hwt⟩, hsig⟩, hidle⟩ := hr
  rw [State.instr_fetch s n 0 op h b hfetch (fun _ => hbad) (by omega)]
  simp only [State.fetchesNow, Bool.and_eq_true, decide_eq_true_eq, beq_iff_eq] at hfetch
  obtain ⟨⟨⟨⟨⟨hn, hst⟩, hcur⟩, hpc⟩, hline⟩, hword⟩ := hfetch
  have hnull : (s.entryAt n 0 op h b).null = false := by
    simp only [State.predOn, bne_iff_ne, ne_eq] at hp
    simp [State.entryAt, hp]
  generalize hu : State.modCore s n _ = u
  have huc : u.core n = { (s.core n).fetched with cur := some (s.entryAt n 0 op h b), progress := true } := by
    rw [← hu, State.core_modCore _ _ _ hn]
  have hidle' : (u.core n).enginesIdle = true := by rw [huc]; exact hidle
  have hsg : (u.core n).sigs = [] := CoreSt.enginesIdle_sigs _ hidle'
  have hbusy : (u.core n).busy = true := by
    rw [huc]; show CoreSt.busy { s.core n with st := (s.core n).st } = true; simp [CoreSt.busy, hst]
  have hqu : ∀ i, vget (u.core n).queues i = [] := fun i => CoreSt.enginesIdle_queue _ hidle' i
  obtain ⟨hx, hcl⟩ := CoreSt.enginesIdle_streams _ hidle'
  unfold State.settle
  rw [if_pos hbusy, State.passDeadlines_idle _ _ hidle', State.drain_idle _ _ hidle', State.pumpN_idle _ _ hx hcl]
  simp only []
  obtain ⟨k, hk⟩ : ∃ k, (u.core n).work = k + 4 := ⟨8 + 2 * sumL ((u.core n).queues.toList.map List.length), by unfold CoreSt.work; omega⟩
  rw [hk]
  have hend := fun k => (State.passes_landed t0 n k hc hq (hl ▸ hc') (hl ▸ hq') (hl ▸ hg')).trans hl
  have hnow : u.now = s.now := by rw [← hu]; rfl
  have hnbw : u.nbWaits n (s.entryAt n 0 op h b) = false := by
    simp only [State.nbWaits, hnow, huc, Bool.and_eq_false_iff, bne_eq_false_iff_eq, decide_eq_false_iff_not]
    rcases hnb with h1 | h1
    · left; simpa [State.entryAt] using h1
    · right
      show ¬ s.now < (s.core n).beatBase + h.nb.toNat
      omega
  have htw : (u.core n).tokWaits (s.entryAt n 0 op h b) = false := by
    rw [huc]
    show decide (vget (s.core n).t h.wtok.toNat < h.wval.toNat) = false
    simp; omega
  by_cases hz : h.wval ≠ 0 ∨ h.nb ≠ 0
  · -- first the waits are consumed, then the operation takes effect
    have h1 : u.seqStep n = some (s.dispatched n op h b) := by
      unfold State.seqStep
      simp only [huc]
      rw [show (s.entryAt n 0 op h b).q = 0 from rfl, if_pos rfl, if_neg (by
        rintro (h2 | h2)
        · rw [hnbw] at h2; cases h2
        · rw [huc] at htw; rw [htw] at h2; cases h2)]
      rw [show (s.entryAt n 0 op h b).h = h from rfl, if_pos hz, ← hu, State.modCore_modCore]
      congr 1
    have hdc := s.dispatched_core n op h b hn
    have h2 : (s.dispatched n op h b).seqStep n = some t0 := by
      unfold State.seqStep
      simp only [hdc]
      rw [show (entryMet (s.entryAt n 0 op h b)).q = 0 from rfl, if_pos rfl]
      rw [if_neg (by simp [State.nbWaits, CoreSt.tokWaits, entryMet, hdrMet]), if_neg (by simp [entryMet, hdrMet])]
      rw [show (entryMet (s.entryAt n 0 op h b)).null = false from hnull]
      rw [hdc] at hw
      simp only [Bool.false_eq_true, if_false]
      rw [if_neg (by rw [hw]; simp), ht]
    have hq2 : ∀ i, vget ((s.dispatched n op h b).core n).queues i = [] := by
      intro i; rw [hdc]; have := hqu i; rw [huc] at this; exact this
    have hg2 : ((s.dispatched n op h b).core n).sigs = [] := by rw [hdc]; rw [huc] at hsg; exact hsg
    have hbd : ((s.dispatched n op h b).core n).busy = true := by rw [hdc]; rw [huc] at hbusy; exact hbusy
    have p1 := State.pass_seq u _ n hbusy hsg h1 hq2
    have p2 := State.pass_seq _ t0 n hbd hg2 h2 hq
    rw [State.passes]; simp only [p1, if_true]
    rw [State.passes]; simp only [p2, if_true]
    exact hend k
  · -- nothing to wait for
    have hz' : h.wval = 0 ∧ h.nb = 0 := by simpa [not_or] using hz
    have hmet : hdrMet h = h := by unfold hdrMet; cases h; simp_all
    have hemet : entryMet (s.entryAt n 0 op h b) = s.entryAt n 0 op h b := by unfold entryMet; simp [State.entryAt, hmet]
    have hud : u = s.dispatched n op h b := by
      rw [← hu]; unfold State.dispatched
      apply State.modCore_congr
      rw [hemet]
      simp only [CoreSt.taken, hz'.1]
      rw [vmod_id _ _ _ (by simp)]
      rfl
    have h2 : u.seqStep n = some t0 := by
      unfold State.seqStep
      simp only [huc]
      rw [show (s.entryAt n 0 op h b).q = 0 from rfl, if_pos rfl, if_neg (by
        rintro (h2 | h2)
        · rw [hnbw] at h2; cases h2
        · rw [huc] at htw; rw [htw] at h2; cases h2)]
      rw [show (s.entryAt n 0 op h b).h = h from rfl, if_neg hz, hnull]
      rw [← hud, hemet, huc] at hw
      simp only [Bool.false_eq_true, if_false]
      rw [if_neg (by rw [hw]; simp)]
      rw [← hud, hemet] at ht
      rw [ht]
    have p1 := State.pass_seq u t0 n hbusy hsg h2 hq
    rw [State.passes]; simp only [p1, if_true]
    exact hend (k + 1)

/-- A ready instruction's header signal fits. -/
theorem State.seqReady_fits (s : State) (n op : Nat) (h : Hdr) (b : Word) (hr : s.seqReady n op h b = true) :
    ((s.core n).taken h).signalFits h = true := by
  simp only [State.seqReady, Bool.and_eq_true] at hr
  exact hr.1.2

/-- A sequencer instruction whose operation changes the core by `g` and ends at `pc` (R81, R86). -/
theorem State.instr_done (s : State) (n op : Nat) (h : Hdr) (b : Word) (g : CoreSt → CoreSt) (pc : Nat)
    (hr : s.seqReady n op h b = true) (hp : s.predOn n h = true)
    (hg : ∀ c : CoreSt, (g c).st = c.st ∧ (g c).queues = c.queues ∧ (g c).cur = c.cur ∧ (g c).sigs = c.sigs)
    (hs : (g ((s.core n).taken h)).signalFits h = true)
    (hm : ∀ (c : CoreSt) (x : Option Entry), ({ g { c with cur := x } with cur := none, progress := true } : CoreSt)
      = g { c with cur := none, progress := true })
    (hw : ((s.dispatched n op h b).core n).opWaits (entryMet (s.entryAt n 0 op h b)) = false)
    (ht : (s.dispatched n op h b).seqOp n (entryMet (s.entryAt n 0 op h b)) =
      ((s.dispatched n op h b).modCore n g).seqDone n (entryMet (s.entryAt n 0 op h b)) pc true) :
    s.instr n 0 op h b = s.modCore n fun c => (g (c.taken h)).passed h pc := by
  have hr' := hr
  simp only [State.seqReady, State.fetchesNow, State.waitsMet, Bool.and_eq_true, Bool.not_eq_true', decide_eq_true_eq,
    beq_iff_eq, Bool.or_eq_true] at hr
  obtain ⟨⟨⟨⟨⟨⟨⟨⟨⟨hn, hst⟩, hcur⟩, hpc⟩, hline⟩, hword⟩, hbad⟩, hnb, hwt⟩, hsig⟩, hidle⟩ := hr
  have hd := s.dispatched_core n op h b hn
  have hdg : (((s.dispatched n op h b).modCore n g).core n) = g ((s.dispatched n op h b).core n) := State.core_modCore _ _ _ hn
  have hsg : ((s.dispatched n op h b).core n).sigs = [] := by rw [hd]; exact CoreSt.enginesIdle_sigs _ hidle
  have hqs : ∀ i, vget ((s.dispatched n op h b).core n).queues i = [] := by
    intro i; rw [hd]; exact CoreSt.enginesIdle_queue _ hidle i
  have e1 : (((s.dispatched n op h b).modCore n g).seqDone n (entryMet (s.entryAt n 0 op h b)) pc true).landed n =
      s.modCore n fun c => (g (c.taken h)).passed h pc := by
    rw [State.seqDone_lands _ _ _ _ hn]
    · unfold State.dispatched
      rw [State.modCore_modCore, State.modCore_modCore]
      apply State.modCore_congr
      rw [hm ((s.core n).taken h)]
      rfl
    · rw [hdg]
      unfold CoreSt.busy
      rw [(hg _).1, hd]
      show ((s.core n).st != .idle && (s.core n).st != .aborting) = true
      simp [hst]
    · rw [hdg, (hg _).2.2.2]; exact hsg
    · rw [hdg, hd]
      have e2 : (g { (s.core n).taken h with cur := some (entryMet (s.entryAt n 0 op h b)) }).t = (g ((s.core n).taken h)).t := by
        have e := congrArg CoreSt.t (hm ((s.core n).taken h) (some (entryMet (s.entryAt n 0 op h b))))
        exact e
      unfold CoreSt.signalFits at hs ⊢
      rw [e2]; exact hs
  have hsd := State.seqDone_core ((s.dispatched n op h b).modCore n g) n (entryMet (s.entryAt n 0 op h b)) pc true hn
  apply State.instr_ready _ _ _ _ _ _ _ hr' hp hw ht e1 hsd.1
  · intro i; rw [hsd.2, hdg, (hg _).2.1]; exact hqs i
  · rw [State.core_modCore _ _ _ hn]
    show (g _).cur = none
    rw [(hg _).2.2.1]; rfl
  · intro i
    rw [State.core_modCore _ _ _ hn]
    show vget (g _).queues i = []
    rw [(hg _).2.1]
    exact CoreSt.enginesIdle_queue _ hidle i
  · rw [State.core_modCore _ _ _ hn]
    show (g _).sigs = []
    rw [(hg _).2.2.2]
    exact CoreSt.enginesIdle_sigs _ hidle

/-- A general register as an instruction reads it at dispatch (R70, R77). -/
theorem State.entry_reg (s : State) (n op : Nat) (h : Hdr) (b : Word) (hi lo : Nat) (hb : hi + 1 - lo ≤ 5) :
    (entryMet (s.entryAt n 0 op h b)).reg hi lo = (s.core n).getG (fld b hi lo) := by
  have hr : fld b hi lo < 32 := by
    unfold fld bitsOf
    have h1 : 2 ^ (hi + 1 - lo) ≤ 2 ^ 5 := Nat.pow_le_pow_right (by omega) hb
    have h2 := Nat.mod_lt (b.toNat / 2 ^ lo) (Nat.two_pow_pos (hi + 1 - lo))
    omega
  show vget (vset (s.core n).g 0 0) (fld b hi lo) = _
  unfold CoreSt.getG
  split
  · rename_i h0; rw [h0]; exact vget_vset_self _ _ _ (by omega)
  · rename_i h0; exact vget_vset_ne _ _ _ _ (Ne.symm h0)

/-- A sequencer instruction that writes a general register (R70, R99). -/
theorem State.instr_reg (s : State) (n op : Nat) (h : Hdr) (b : Word) (v : Word)
    (hr : s.seqReady n op h b = true) (hp : s.predOn n h = true)
    (hw : ((s.dispatched n op h b).core n).opWaits (entryMet (s.entryAt n 0 op h b)) = false)
    (ht : (s.dispatched n op h b).seqOp n (entryMet (s.entryAt n 0 op h b)) =
      (s.dispatched n op h b).seqReg n (entryMet (s.entryAt n 0 op h b)) v) :
    s.instr n 0 op h b =
      s.modCore n fun c => (((c.taken h).setG (fld b 63 59) v).resultIn n op (fld b 63 59)).passed h (c.pc + 16) := by
  rw [s.instr_done n op h b (fun c => (c.setG (fld b 63 59) v).resultIn n op (fld b 63 59)) ((s.core n).pc + 16) hr hp
    (by intro c; unfold CoreSt.resultIn CoreSt.setG; repeat' split <;> try exact ⟨rfl, rfl, rfl, rfl⟩)
    (by
      have h1 := State.seqReady_fits _ _ _ _ _ hr
      unfold CoreSt.resultIn CoreSt.setG
      repeat' split <;> try exact h1)
    (by intro c x; unfold CoreSt.resultIn CoreSt.setG; repeat' split <;> try rfl) hw ht]
  exact State.modCore_congr _ _ _ _ rfl

/-- The result of every operation but MUL and LD is usable in the next cycle (Table 3.5). -/
theorem CoreSt.resultIn_soon (c : CoreSt) (n op r : Nat) (h1 : op ≠ 0x03) (h2 : op ≠ 0x50) : c.resultIn n op r = c := by
  simp [CoreSt.resultIn, h1, h2]

/-- A sequencer instruction that writes a predicate (R70, R99). -/
theorem State.instr_pred (s : State) (n op : Nat) (h : Hdr) (b : Word) (v : Bool)
    (hr : s.seqReady n op h b = true) (hp : s.predOn n h = true)
    (hw : ((s.dispatched n op h b).core n).opWaits (entryMet (s.entryAt n 0 op h b)) = false)
    (ht : (s.dispatched n op h b).seqOp n (entryMet (s.entryAt n 0 op h b)) =
      (s.dispatched n op h b).seqPred n (entryMet (s.entryAt n 0 op h b)) v) :
    s.instr n 0 op h b = s.modCore n fun c => ((c.taken h).setP (fld b 61 59) v).passed h (c.pc + 16) := by
  rw [s.instr_done n op h b (fun c => c.setP (fld b 61 59) v) ((s.core n).pc + 16) hr hp
    (by intro c; unfold CoreSt.setP; split <;> exact ⟨rfl, rfl, rfl, rfl⟩)
    (by unfold CoreSt.setP; split <;> exact State.seqReady_fits _ _ _ _ _ hr)
    (by intro c x; unfold CoreSt.setP; split <;> rfl) hw ht]
  exact State.modCore_congr _ _ _ _ rfl

/-! ## Fields of the body as words -/

/-- A field that is sign-extended (R99). -/
theorem sextF_eq (b : Word) (lo w : Nat) (hw : 0 < w) (h : w ≤ 64) :
    sextF b (lo + w - 1) lo = (b.extractLsb' lo w).signExtend 64 := by
  apply BitVec.eq_of_toInt_eq
  have h1 : lo + w - 1 + 1 - lo = w := by omega
  unfold sextF intW fld bitsOf sextN
  rw [h1, BitVec.toInt_ofInt, BitVec.toInt_signExtend_of_le h, BitVec.toInt_eq_toNat_cond]
  simp only [BitVec.extractLsb'_toNat, Nat.shiftRight_eq_div_pow]
  rw [Nat.mod_mod]
  generalize hx : b.toNat / 2 ^ lo % 2 ^ w = x
  have hlt : x < 2 ^ w := by rw [← hx]; exact Nat.mod_lt _ (Nat.two_pow_pos w)
  obtain ⟨k, rfl⟩ : ∃ k, w = k + 1 := ⟨w - 1, by omega⟩
  have hp : 2 ^ (k + 1) = 2 * 2 ^ k := by rw [Nat.pow_succ]; omega
  have hle : 2 ^ k ≤ 2 ^ 63 := Nat.pow_le_pow_right (by omega) (by omega)
  simp only [Nat.add_sub_cancel] at *
  have : ((2 ^ (k + 1) : Nat) : Int) = 2 * ((2 ^ k : Nat) : Int) := by rw [hp]; simp
  split <;> split <;> (rw [Int.bmod_eq_of_le] <;> omega)

theorem sext32_eq (b : Word) : sextF b 31 0 = (b.extractLsb' 0 32).signExtend 64 := sextF_eq b 0 32 (by decide) (by decide)

theorem sext48_eq (b : Word) : sextF b 47 0 = (b.extractLsb' 0 48).signExtend 64 := sextF_eq b 0 48 (by decide) (by decide)

/-- A signed 32-bit offset (R86). -/
theorem rel32_eq (b : Word) : sextN 32 (fld b 31 0) = (b.extractLsb' 0 32).toInt := by
  unfold fld bitsOf sextN
  rw [BitVec.toInt_eq_toNat_cond]
  simp [BitVec.extractLsb'_toNat]
  split <;> split <;> omega

/-- The 16 bits that MOVH puts above the low 48 of a register. -/
theorem movh_eq (a b : Word) : toW (fld a 47 0 + fld b 15 0 * 2 ^ 48) = (a &&& (0x0000FFFFFFFFFFFF : Word)) ||| (b <<< 48) := by
  apply BitVec.eq_of_toNat_eq
  have h1 : (0x0000FFFFFFFFFFFF : Word).toNat = 2 ^ 48 - 1 := by decide
  have h2 : b.toNat <<< 48 % 2 ^ 64 = 2 ^ 48 * (b.toNat % 2 ^ 16) := by
    rw [Nat.shiftLeft_eq, Nat.mul_comm, show (2 : Nat) ^ 64 = 2 ^ 48 * 2 ^ 16 by decide, Nat.mul_mod_mul_left]
  have h3 : a.toNat % 2 ^ 48 < 2 ^ 48 := Nat.mod_lt _ (by decide)
  have h4 : b.toNat % 2 ^ 16 < 2 ^ 16 := Nat.mod_lt _ (by decide)
  rw [BitVec.toNat_or, BitVec.toNat_and, BitVec.toNat_shiftLeft, h1, h2, Nat.and_two_pow_sub_one_eq_mod, Nat.or_comm,
    ← Nat.two_pow_add_eq_or_of_lt h3]
  unfold toW fld bitsOf
  simp only [BitVec.toNat_ofNat]
  omega

/-- An operation that does not wait (R84, R90, R99). -/
theorem State.opWaits_false (s : State) (n op : Nat) (h : Hdr) (b : Word) (h1 : op ≠ 0x33) (h2 : op ≠ 0x48) (h3 : op ≠ 0x49)
    (h4 : op ≠ 0x60) : ((s.dispatched n op h b).core n).opWaits (entryMet (s.entryAt n 0 op h b)) = false := by
  unfold CoreSt.opWaits
  simp only [entryMet, State.entryAt]

/-! ## What the check and the hold of a head read -/

/-- Whether the head of a queue is illegal depends on the shape of the ME only (R76). -/
theorem State.headBad_congr (s t : State) (n : Nat) (e : Entry) (h : (s.core n).me = (t.core n).me) : s.headBad n e = t.headBad n e := by
  unfold State.headBad; rw [h]

/-- What a VE instruction reads depends on the Skillet only (R166). -/
theorem State.veReads_congr (s t : State) (n : Nat) (e : Entry) (h : (s.core n).skillet = (t.core n).skillet) :
    s.veReads n e = t.veReads n e := by
  unfold State.veReads; rw [h]

/-- Whether a VE instruction is held depends on the Skillet, the instructions in execution and the tables (R166, R184). -/
theorem State.veHeld_congr (s t : State) (n : Nat) (e : Entry) (h : (s.core n).skillet = (t.core n).skillet)
    (hf : (s.core n).flights = (t.core n).flights) (hv : (s.core n).ve = (t.core n).ve) : s.veHeld n e = t.veHeld n e := by
  unfold State.veHeld State.vePending; rw [State.veReads_congr s t n e h, hf, hv]

/-- Whether an ME instruction is held depends on the instructions in execution and the ME. -/
theorem CoreSt.meHeld_congr (c d : CoreSt) (e : Entry) (hf : c.flights = d.flights) (hm : c.me = d.me) : c.meHeld e = d.meHeld e := by
  unfold CoreSt.meHeld CoreSt.meWork; rw [hf, hm]

/-- Whether the unit of an instruction is ready depends on the Skillet, what is in execution, the units' own state and the credits. -/
theorem State.unitHeld_congr (s t : State) (n : Nat) (e : Entry) (h : (s.core n).skillet = (t.core n).skillet)
    (hf : (s.core n).flights = (t.core n).flights) (hm : (s.core n).me = (t.core n).me) (hv : (s.core n).ve = (t.core n).ve)
    (hx : (s.core n).sm = (t.core n).sm) (hc : (s.core n).credits = (t.core n).credits) : s.unitHeld n e = t.unitHeld n e := by
  unfold State.unitHeld CoreSt.putWaits
  simp only []
  rw [State.veHeld_congr s t n e h hf hv, CoreSt.meHeld_congr _ _ e hf hm, hx, hc]

/-! ## One engine instruction -/

/-- A pass over the heads in which the sequencer dispatches and only the head of queue `q` begins (R82). -/
theorem State.heads_begin (u w t : State) (n q : Nat) (h1 : 1 ≤ q) (h5 : q ≤ 5) (hu : (u.core n).busy = true)
    (hs : u.seqStep n = some w) (hw : (w.core n).busy = true) (hh : w.headStep n q = some t)
    (ho : ∀ j, j ≠ q - 1 → w.headStep n (j + 1) = none) (ht : ∀ j, t.headStep n (j + 1) = none) :
    u.heads n [0, 1, 2, 3, 4, 5] = (true, t) := by
  have hq : q = 1 ∨ q = 2 ∨ q = 3 ∨ q = 4 ∨ q = 5 := by omega
  have c1 := ht 0; have c2 := ht 1; have c3 := ht 2; have c4 := ht 3; have c5 := ht 4
  have b1 := ho 0; have b2 := ho 1; have b3 := ho 2; have b4 := ho 3; have b5 := ho 4
  unfold State.heads
  rcases hq with rfl | rfl | rfl | rfl | rfl <;> simp_all

/-- An instruction that is fetched, put in its empty queue and taken from it with its waits consumed leaves the core as `issued`
has it (R77, R80). -/
theorem State.issued_steps (s : State) (n q : Nat) (h : Hdr) (e : Entry) (he : e.h = h) (hq : vget (s.core n).queues (q - 1) = []) :
    (((s.modCore n fun c => { c.fetched with cur := some e, progress := true }).modCore n fun c =>
      { c with
        queues := vmod c.queues (q - 1) (fun l => l ++ [e])
        cur := none
        pc := (s.core n).pc + 16
        progress := true }).modCore n fun c => ({ c with queues := vset c.queues (q - 1) [] }).consume e) = s.issued n h := by
  rw [State.modCore_modCore, State.modCore_modCore]
  unfold State.issued
  apply State.modCore_congr
  have e2 : vset (vmod (s.core n).queues (q - 1) (fun l => l ++ [e])) (q - 1) [] = (s.core n).queues := by
    unfold vmod
    rw [vset_vset, ← hq, vset_vget]
  unfold CoreSt.consume CoreSt.taken
  show ({ (s.core n).fetched with
    queues := vset (vmod (s.core n).queues (q - 1) (fun l => l ++ [e])) (q - 1) [], cur := none
    pc := (s.core n).pc + 16, progress := true, t := _ } : CoreSt) = _
  rw [e2, he]
  rfl

/-- An engine instruction that is ready begins in the step that fetches it, and nothing else happens but the signals of what
completes with it, where no head can begin after it (R77 to R82). -/
theorem State.engine_ready (s t0 t : State) (n q op : Nat) (h : Hdr) (b : Word) (hr : s.engReady n q op h b = true)
    (ht : (((s.issued n h).beginOp n (s.entryAt n q op h b)).drain n).pumpN n = t0) (hl : t0.landed n = t)
    (hc : (t0.core n).cur = none) (hq : ∀ i, vget (t0.core n).queues i = [])
    (hc' : (t.core n).cur = none) (hq' : ∀ i, vget (t.core n).queues i = []) (hg' : (t.core n).sigs = []) :
    s.instr n q op h b = t := by
  simp only [State.engReady, State.waitsMet, Bool.and_eq_true, Bool.not_eq_true', decide_eq_true_eq, beq_iff_eq,
    Bool.or_eq_true, bne_iff_ne, ne_eq] at hr
  obtain ⟨⟨⟨⟨⟨⟨⟨⟨hfetch, hq1⟩, hq5⟩, hbad⟩, hnb, hwt⟩, hdie⟩, hheld⟩, hp⟩, hidle⟩ := hr
  rw [State.instr_fetch s n q op h b hfetch (by omega) hq5]
  simp only [State.fetchesNow, Bool.and_eq_true, decide_eq_true_eq, beq_iff_eq] at hfetch
  obtain ⟨⟨⟨⟨⟨hn, hst⟩, hcur⟩, hpc⟩, hline⟩, hword⟩ := hfetch
  have hnull : (s.entryAt n q op h b).null = false := by
    simp only [State.predOn, bne_iff_ne, ne_eq] at hp
    simp [State.entryAt, hp]
  generalize hu : State.modCore s n _ = u
  have huc : u.core n = { (s.core n).fetched with cur := some (s.entryAt n q op h b), progress := true } := by
    rw [← hu, State.core_modCore _ _ _ hn]
  have hidle' : (u.core n).enginesIdle = true := by rw [huc]; exact hidle
  have hsg : (u.core n).sigs = [] := CoreSt.enginesIdle_sigs _ hidle'
  have hbusy : (u.core n).busy = true := by
    rw [huc]; show CoreSt.busy { s.core n with st := (s.core n).st } = true; simp [CoreSt.busy, hst]
  have hqs : ∀ i, vget (s.core n).queues i = [] := fun i => CoreSt.enginesIdle_queue _ hidle i
  obtain ⟨hx, hcl⟩ := CoreSt.enginesIdle_streams _ hidle'
  unfold State.settle
  rw [if_pos hbusy, State.passDeadlines_idle _ _ hidle', State.drain_idle _ _ hidle', State.pumpN_idle _ _ hx hcl]
  simp only []
  obtain ⟨k, hk⟩ : ∃ k, (u.core n).work = k + 3 := ⟨9 + 2 * sumL ((u.core n).queues.toList.map List.length), by unfold CoreSt.work; omega⟩
  rw [hk]
  -- the sequencer dispatches
  generalize hw : State.modCore u n (fun c =>
    { c with
      queues := vmod c.queues (q - 1) (fun l => l ++ [s.entryAt n q op h b])
      cur := none
      pc := (s.core n).pc + 16
      progress := true }) = w
  have hroom : (u.core n).room q = true := by
    rw [huc]
    show decide ((vget (s.core n).queues (q - 1)).length < queueDepth q) = true
    simp only [hqs, List.length_nil, decide_eq_true_eq, queueDepth]
    split <;> omega
  have hseq : u.seqStep n = some w := by
    unfold State.seqStep
    simp only [huc]
    rw [show (s.entryAt n q op h b).q = q from rfl, if_neg (by omega), hnull]
    rw [huc] at hroom
    rw [if_pos hroom, ← hw]
    rfl
  have hwc : w.core n = { (u.core n) with
      queues := vmod (u.core n).queues (q - 1) (fun l => l ++ [s.entryAt n q op h b])
      cur := none
      pc := (s.core n).pc + 16
      progress := true } := by
    rw [← hw, State.core_modCore _ _ _ hn]
  have hwb : (w.core n).busy = true := by rw [hwc]; exact hbusy
  have huq : ∀ i, vget (u.core n).queues i = [] := by intro i; rw [huc]; exact hqs i
  have hwq : ∀ j, j ≠ q - 1 → vget (w.core n).queues j = [] := by
    intro j hj; rw [hwc]; show vget (vmod _ _ _) j = []; rw [vget_vmod_ne _ _ _ _ (Ne.symm hj)]; exact huq j
  have hwq1 : vget (w.core n).queues (q - 1) = [s.entryAt n q op h b] := by
    rw [hwc]; show vget (vmod _ _ _) (q - 1) = _; rw [vget_vmod_self _ _ _ (by omega), huq]; rfl
  -- the head begins
  have hnow : w.now = s.now := by rw [← hw, ← hu]; rfl
  have hdieW : w.die (coreDie n) = s.die (coreDie n) := by rw [← hw, ← hu]; rfl
  have hiss : (w.modCore n fun c => ({ c with queues := vset c.queues (q - 1) [] }).consume (s.entryAt n q op h b)) = s.issued n h := by
    rw [← hw, ← hu]
    exact State.issued_steps s n q h (s.entryAt n q op h b) rfl (hqs (q - 1))
  have hhead : w.headStep n q = some t0 := by
    unfold State.headStep
    simp only [hwq1]
    rw [if_neg (by
      have : w.headBad n (s.entryAt n q op h b) = s.headBad n (s.entryAt n q op h b) :=
        State.headBad_congr _ _ _ _ (by rw [hwc, huc]; rfl)
      rw [this, hbad]; simp)]
    rw [if_neg (by
      rintro (h1 | h1 | h1 | h1)
      · rw [hdieW] at h1; exact hdie h1
      · simp only [State.nbWaits, hnow, hwc, huc, Bool.and_eq_true, bne_iff_ne, ne_eq, decide_eq_true_eq] at h1
        rcases hnb with h2 | h2
        · exact h1.1 h2
        · have h3 : s.now < (s.core n).beatBase + h.nb.toNat := h1.2
          omega
      · rw [hwc, huc] at h1
        have h3 : decide (vget (s.core n).t h.wtok.toNat < h.wval.toNat) = true := h1
        simp at h3; omega
      · have : w.unitHeld n (s.entryAt n q op h b) = s.unitHeld n (s.entryAt n q op h b) := by
          apply State.unitHeld_congr <;> (rw [hwc, huc]; rfl)
        rw [this, hheld] at h1; cases h1)]
    rw [hiss, hnull, ← ht]; rfl
  have hpass : u.pass n = (true, t0) := by
    have h1 : ∀ j, j ≠ q - 1 → w.headStep n (j + 1) = none := fun j hj => State.headStep_idle _ _ _ (hwq j hj)
    have h2 : ∀ j, t0.headStep n (j + 1) = none := fun j => State.headStep_idle _ _ _ (hq j)
    have htf : (u.core n).tokenFirst = false := by
      rw [huc]
      show (Option.any _ (some (s.entryAt n q op h b))) = false
      have : (q == 0) = false := by simp; omega
      simp [State.entryAt, this]
    have hh := State.heads_begin u w t0 n q hq1 hq5 hbusy hseq hwb hhead h1 h2
    unfold State.pass
    simp only [hsg, htf, if_true, State.applySigs, List.foldl_nil, hh, List.isEmpty_nil, Bool.not_true, Bool.or_true, Bool.false_or,
      Bool.false_eq_true, if_false]
  rw [State.passes]; simp only [hpass, if_true]
  exact (State.passes_landed t0 n k hc hq (hl ▸ hc') (hl ▸ hq') (hl ▸ hg')).trans hl

/-- With the oldest instruction of every in-order engine still in execution, nothing completes (R79). -/
theorem State.drain_running (s : State) (n : Nat) (h : ∀ i f fs, vget (s.core n).flights i = f :: fs → f.done = false) :
    s.drain n = s := by
  have hq : ∀ k i, State.drainQ k n i s = s := by
    intro k i
    cases k with
    | zero => rfl
    | succ k =>
      unfold State.drainQ
      split
      · rfl
      · rename_i f fs he
        rw [h i f fs he]; simp
  simp [State.drain, hq]

/-- An engine instruction that is ready, and whose beginning leaves it in execution with nothing for the stream engines,
takes exactly the effect of its beginning. -/
theorem State.engine_begins (s t : State) (n q op : Nat) (h : Hdr) (b : Word) (hr : s.engReady n q op h b = true)
    (ht : (s.issued n h).beginOp n (s.entryAt n q op h b) = t) (hc : (t.core n).cur = none)
    (hq : ∀ i, vget (t.core n).queues i = []) (hf : ∀ i f fs, vget (t.core n).flights i = f :: fs → f.done = false)
    (hg : (t.core n).sigs = []) (hx : (t.core n).sm.xfers = []) (hl : (t.core n).sm.cols = []) : s.instr n q op h b = t := by
  apply State.engine_ready s t t n q op h b hr _ (by simp [State.landed, hg, State.applySigs]) hc hq hc hq hg
  rw [ht, State.drain_running t n hf, State.pumpN_idle t n hx hl]

end Sys2Proof.Machine
end

