-- ==== Sys2Proof/WellFormed.lean ====
section
/-!
DEFINITION. Well-formed commands: every number lies in the range that the manual gives the thing it names.
-/

namespace Sys2Proof

open Sys2Proof.Machine

/-- A core number (R13). -/
def okCore (n : Nat) : Bool := decide (n < 192)
/-- A Fjarner port (Table 1.2). -/
def okPort (p : Nat) : Bool := decide (p < 17)
/-- A package ID (R18). -/
def okPkg (p : Nat) : Bool := decide (p < 2 ^ 14)
/-- A partition (R350). -/
def okPart (p : Nat) : Bool := decide (p < 16)
/-- A region block and its slice (R10). -/
def okSlice (r : Nat) : Bool := decide (r < 16)
/-- A C-die (R8). -/
def okDie (d : Nat) : Bool := decide (d < 4)
/-- A message body (Table 11.6). -/
def okBody (b : List Byte) : Bool := decide (b.length ≤ 4096)
/-- The way a message came: 17 stands for the package itself. -/
def okVia (v : Via) : Bool := decide (v.port < 18) && okPkg v.src && decide (v.unit < 256) && decide (v.tag < 65536)
/-- The acknowledgement and credits of a flit (Table 11.3). -/
def okFlit (h : FlitHdr) : Bool :=
  decide (h.ack < 4096) && decide (h.cvc < 6) && decide (h.ccount < 256) && h.corr.all fun i => decide (i < 256)

/-- A command is well formed. -/
def Instr.wf (i : Instr) : Bool :=
  match i with
  | .csrRead v off _ | .csrWrite v off _ _ => okVia v && decide (off < 2 ^ 28)
  | .d2dRetransmit link half => decide (link < 8) && decide (half < 2)
  | .pllLock | .refclkLost | .beatSyncPulse _ | .syncLost | .holdoverExpired | .noRoot | .seedCompare
  | .markerSend | .rendezvousLead _ _ | .rendezvousReached _ | .createFillComplete _ | .extentRelease _
  | .grantInvalComplete _ | .allocationTimeout _ _ | .eccReportPoll _ | .testComplete _ _
  | .deferredTestStart _ | .keepaliveSend | .localCommit _ | .voteTimeout _ | .commitMirrorTimeout _
  | .decisionBeat _ | .rerunStart _ | .inDoubt _ | .inDoubtQuery _ | .journalReplay _ _ | .pairRetry
  | .nvmeCompletion _ _ | .riskDecay | .brownHoldEnter | .governorPeriod _ _ | .blockResetComplete _
  | .packageReset _ _ _ | .fwWatchdog | .bootStepDone _ | .bootRetry | .cfgStageWritten | .cfgActivated
  | .fwStageComplete _ | .attestDone | .killed _ | .stagedCopyComplete _ _ _ _ | .pciePortRetrained _ _ _
  | .fwOperationComplete => true
  | .beatSeed v _ | .slip v _ _ _ _ _ | .ready v _ _ | .grantMsg v _ | .hostWriteReply v _ _ | .mirror v _
  | .mirrorAck v _ | .vote v _ | .decision v _ _ | .slotAck v _ _ _ _ | .activationAnnounce v _ | .fwStage v
  | .fwActivate v | .arbCommit v => okVia v
  | .nakRepeat port | .replayTimeout port | .keepaliveLost port | .ident port _
  | .echo port _ _ _ | .farEndDetect port | .trainingStepTimeout port | .trainingRetry port => okPort port
  | .rdv core _ _ | .startBeatReached core | .nop core _ _ | .add core _ _ | .sub core _ _ | .mul core _ _
  | .andOp core _ _ | .orOp core _ _ | .xor core _ _ | .shl core _ _ | .shr core _ _ | .sra core _ _
  | .minOp core _ _ | .maxOp core _ _ | .addi core _ _ | .andi core _ _ | .shli core _ _ | .shri core _ _
  | .movi core _ _ | .movh core _ _ | .cmp core _ _ | .cmpi core _ _ | .plog core _ _ | .beatge core _ _
  | .tset core _ _ | .tadd core _ _ | .tget core _ _ | .twait core _ _ | .br core _ _ | .jr core _ _
  | .callOp core _ _ | .ret core _ _ | .loopOp core _ _ | .race core _ _ | .rjoin core _ _ | .ld core _ _
  | .st core _ _ | .gets core _ _ | .fence core _ _ | .endProg core _ _ | .abortProg core _ _
  | .ibufRefill core | .abortingComplete core | .drainComplete core | .noProgress core | .wopen core _ _
  | .wclose core _ _ | .grant core _ _ | .put core _ _ | .mshape core _ _ | .sload core _ _ | .ifill core _ _
  | .mmul core _ _ | .accst core _ _ | .veAdd core _ _ | .veSub core _ _ | .veMul core _ _ | .fma core _ _
  | .veMin core _ _ | .veMax core _ _ | .unary core _ _ | .bitOp core _ _ | .veCmp core _ _ | .cvt core _ _
  | .reduce core _ _ | .funcOp core _ _ | .ftload core _ _ | .compress core _ _ | .expand core _ _
  | .slice core _ _ | .combine core _ _ | .vseed core _ _ | .xfer core _ _ | .gather core _ _
  | .scatter core _ _ | .watchCloseAck core _ _ | .whiskTileWritten core | .lbistSliceStart core _
  | .lbistSliceComplete core _ | .clearingComplete core | .programLoaded core | .levelGain core => okCore core
  | .instructionComplete core q _ _ | .faultRaise core q _ _ _ _ | .notBeforeReached core q =>
    okCore core && decide (q < 6)
  | .raceDeadline core slot => okCore core && decide (slot < 4)
  | .putMsg v p => okVia v && okBody p.data
  | .putAck v core _ | .grantAck v core _ | .coreReset v core => okVia v && okCore core
  | .grantResend core tag | .granuleLanded core tag _ | .storeAccepted core tag _ =>
    okCore core && decide (tag < 65536)
  | .ldlRegWrite v core tier _ _ _ => okVia v && okCore core && decide (tier < 3)
  | .create v m | .freeObj v m | .moveObj v m | .evict v m | .setflags v m | .objGrant v m | .revoke v m
  | .query v m | .mapObj v m | .poolAdd v m | .runCmd v m | .groupCmd v m | .preempt v m | .resume v m
  | .jobEnd v m => okVia v && okBody m
  | .moveCopyDone idx _ _ | .flipComplete idx => decide (idx < 2 ^ 20)
  | .quotaLimitWrite v client tier _ _ => okVia v && decide (client < 64) && decide (tier < 3)
  | .hostReadReply v data => okVia v && data.all okBody
  | .hostTimeout tag | .mirrorRetry tag => decide (tag < 65536)
  | .rowReconstructed sl bank row seg _ =>
    okSlice sl && decide (bank < 130) && decide (row < 12352) && decide (seg < 33)
  | .rowSpareCopyDone sl bank row => okSlice sl && decide (bank < 130) && decide (row < 12352)
  | .patrolRead sl _ seg => okSlice sl && seg.all fun x => decide (x < 33)
  | .bankSpareCopyDone sl _ | .sliceRetired sl => okSlice sl
  | .dataFlit port raw => okPort port && raw.length == 256
  | .idleFlit port h | .nak port h _ | .keepalive port h _ | .marker port h _ _ _ _ _ => okPort port && okFlit h
  | .width port h mask => okPort port && okFlit h && decide (mask < 256)
  | .detectDone port lanes | .equaliseDone port lanes | .lockDone port lanes | .identifyDone port lanes _
  | .lossOfLock port lanes => okPort port && decide (lanes < 256)
  | .retrain v port laneOff | .laneOffWrite v port laneOff => okVia v && okPort port && decide (laneOff < 256)
  | .messageForward port bytes => okPort port && decide (bytes.length ≤ 5000)
  | .parityNak v dunit mtype | .errorMsg v dunit _ mtype => okVia v && decide (dunit < 256) && decide (mtype < 256)
  | .responseTimeout unit tag => decide (unit < 256) && decide (tag < 65536)
  | .commandStart part | .freeze part | .restorationComplete part _ => okPart part
  | .pair v pkg feed partner _ => okVia v && okPkg pkg && decide (feed < 16) && okPkg partner
  | .slotWrite v part slot _ _ data => okVia v && okPart part && decide (slot < 2) && okBody data
  | .seal v _ part slot bytes => okVia v && okPart part && decide (slot < 2) && okBody bytes
  | .lidStoreAck v part _ => okVia v && okPart part
  | .restore v source part => okVia v && decide (source < 4) && okPart part
  | .railWarning rail | .railRecovered rail | .railBelowReset rail => decide (rail < 11)
  | .brownHoldCleared die | .degradedHold die => okDie die
  | .hostModeWrite v mode => okVia v && decide (mode < 4)
  | .thermalPeriod die _ | .thermalWarning die _ | .thermalTrip die _ => decide (die < 5)
  | .regionReset v region => okVia v && okSlice region
  | .dieReset v die => okVia v && okDie die
  | .resetRelease boot clk feed slot _ =>
    decide (boot < 4) && decide (clk < 4) && decide (feed < 16) && decide (slot < 8)
  | .cfgStage v length => okVia v && decide (length < 2 ^ 17)
  | .attestRequest v core _ nobj => okVia v && decide (core < 256) && decide (nobj < 32)
  | .sidebandWrite addr off data => decide (addr < 128) && decide (off < 256) && decide (data.length < 256)
  | .sidebandRead addr _ | .trayModeWrite addr _ => decide (addr < 128)
  | .setdasa static dynamic => decide (static < 128) && decide (dynamic < 128)
  | .hltClr v bank target => okVia v && decide (bank < 16) && decide (target < 256)
  | .counterClear bank target => decide (bank < 16) && decide (target < 256)

end Sys2Proof
end

