-- ==== Sys2Proof/Tests/Slice0.lean ====
section
/-!
SUPPORT. Tests of the model on small states, and for each statement of Sys2Proof/Certificates/Slice0/Obligations.lean that has hypotheses
a state and operands that meet them together (witness).
-/

namespace Sys2Proof.Tests

open Sys2Proof Sys2Proof.Machine

set_option Elab.async false

/-! ## Small states -/

/-- Reset leaves the command queue empty. -/
theorem test_reset_queue : State.reset.pending = [] := rfl

/-- A local command on core 0. -/
def cmd0 : Cmd :=
  { acceptNo := 7, kind := 1, tag := 0, message := [], client := 0, part := 0, job := 0, req := 1, rerunMax := 8, stage := .running
    cores := [0] }

/-- A package whose core 0 runs the program that is the one word `w`, with `f` done to the core. -/
def run (w : Nat) (f : CoreSt → CoreSt) : State :=
  (({ State.reset with cmd := { State.reset.cmd with cmds := [cmd0] } } : State).modCore 0 fun c => f { c with
    st := .running, progLen := 1024, ibuf := [0], skillet := Mem.zero.writeLE 0 16 w, cmd := some 7 })

/-- The body with a value at a bit. -/
def at_ (v lo : Nat) : Nat := v * 2 ^ lo

/-- A header that waits for 2 of token 1 and signals 3 on token 2. -/
def hdr : Hdr := { wtok := 1, wval := 2, stok := 2, sval := 3 }

/-- Token 1 holds 5; g1 is 0x1000, g2 is 0x2000. -/
def setup (c : CoreSt) : CoreSt := { c with t := vset c.t 1 5, g := vset (vset c.g 1 0x1000) 2 0x2000 }

/-- The state in which core 0 is at the instruction (q, op, hdr, b), with `f` done to it after `setup`. -/
def at0 (q op b : Nat) (f : CoreSt → CoreSt := id) : State := run (instWord q op hdr (toW b)) fun c => f (setup c)

/-- The sequencer instruction (op, hdr, b) is ready on core 0, with its predicate 1. -/
def ready0 (op b : Nat) (f : CoreSt → CoreSt := id) : Bool :=
  (at0 0 op b f).seqReady 0 op hdr (toW b) && (at0 0 op b f).predOn 0 hdr

/-- The engine instruction (q, op, hdr, b) is ready on core 0. -/
def eng0 (q op b : Nat) (f : CoreSt → CoreSt := id) : Bool := (at0 q op b f).engReady 0 q op hdr (toW b)

/-- RD, RA and RB of formats A, I and W: g3, g1 and g2. -/
def abc : Nat := at_ 3 59 + at_ 1 54 + at_ 2 49

/-! ## Witnesses: the sequencer -/

theorem witness_AluResults :
    ([1, 2, 3, 4, 5, 6, 7, 8, 9, 10, 11].all fun op => ready0 op abc) = true := by decide +kernel

theorem witness_AluResults_immediate : (ready0 0x10 (at_ 3 59 + at_ 1 54 + 0xFFFFFFFF) && ready0 0x11 (at_ 3 59 + at_ 1 54 + 0xFF)
    && ready0 0x12 (at_ 3 59 + at_ 1 54 + 63) && ready0 0x13 (at_ 3 59 + at_ 1 54 + 63) && ready0 0x14 (at_ 3 59 + 0x800000000000)
    && ready0 0x15 (at_ 3 59 + at_ 1 54 + 0xFFFF)) = true := by decide +kernel

theorem witness_PredicateRegisterResults : ([0, 1, 2, 3, 4, 5].all fun k => fld (toW (at_ 1 59 + at_ k 45)) 47 45 == k
    && ready0 0x20 (at_ 1 59 + at_ 1 54 + at_ 2 49 + at_ k 45) && ready0 0x21 (at_ 1 59 + at_ 1 54 + at_ k 45 + 5)) = true := by decide +kernel

theorem witness_PredicateRegisterResults_plog : ([0, 1, 2, 3].all fun k => ready0 0x22 (at_ 1 59 + at_ 2 42 + at_ 3 39 + at_ k 37)
    && ready0 0x23 (at_ 1 59 + 0xFFFFFF)) = true := by decide +kernel

/-- An undefined COND of CMP and CMPI. -/
theorem witness_PredicateRegisterResults_cond : ([6, 7].all fun k => decide (6 ≤ fld (toW (at_ k 45)) 47 45)
    && (at0 0 0x20 (at_ k 45)).fetchesNow 0 0 0x20 hdr (toW (at_ k 45))
    && (at0 0 0x21 (at_ k 45)).fetchesNow 0 0 0x21 hdr (toW (at_ k 45))) = true := by decide +kernel

/-- Destinations g0 and p0, and the operand g0. -/
theorem witness_ConstantRegisters :
    (([1, 2, 3, 4, 5, 6, 7, 8, 9, 10, 11].all fun op => ready0 op (at_ 1 54 + at_ 2 49))
    && ([0x10, 0x11, 0x12, 0x13].all fun op => ready0 op (at_ 1 54 + 5)) && ready0 0x14 5 && ready0 0x15 5 && ready0 0x32 (at_ 1 48)
    && ready0 0x52 7 && ready0 0x20 (at_ 1 54) && ready0 0x21 (at_ 1 54) && ready0 0x22 0 && ready0 0x23 5
    && ready0 0x10 (at_ 3 59 + 0xFFFFFFFF) && ready0 0x50 (at_ 1 54 + 8) && ready0 0x44 7) = true := by decide +kernel

/-- TSET to 65,535 with a signal on another token; TADD that reaches 65,535; TWAIT for what the token holds. -/
theorem witness_TokenResults : (ready0 0x30 (at_ 5 48 + 65535)
    && (((((at0 0 0x30 (at_ 5 48 + 65535)).core 0).taken hdr).setTok 5 65535).signalFits hdr)
    && ready0 0x31 (at_ 5 48 + 65535)
    && (((((at0 0 0x31 (at_ 5 48 + 65535)).core 0).taken hdr).setTok 5 65535).signalFits hdr)
    && ready0 0x32 (at_ 3 59 + at_ 1 48) && ready0 0x33 (at_ 1 48 + 3)
    && vget (((at0 0 0x33 (at_ 1 48 + 3)).core 0).taken hdr).t 1 == 3) = true := by decide +kernel

theorem witness_ControlFlowResults : (ready0 0x00 0 && ready0 0x60 0x7E && ready0 0x40 0xFFFFFFFF && ready0 0x41 (at_ 1 54)
    && ready0 0x42 7 (fun c => { c with calls := List.replicate 15 16 }) && ready0 0x43 0 (fun c => { c with calls := [32] })
    && ready0 0x44 (at_ 1 54 + 7)) = true := by decide +kernel

/-- The last word of the Skillet, the first word after the program region, and the last special value. -/
theorem witness_LoadStoreResults : (ready0 0x50 (at_ 3 59 + at_ 1 54) (fun c => { c with g := vset c.g 1 0x7FFFF8 })
    && ready0 0x51 (at_ 3 59 + at_ 1 54) (fun c => { c with g := vset c.g 1 0x400 }) && ready0 0x52 (at_ 3 59 + 7)
    && (at0 0 0x52 8).fetchesNow 0 0 0x52 hdr (toW 8)
    && ((at0 0 0x51 (at_ 3 59 + at_ 1 54)).core 0).progEnd == 0x400) = true := by decide +kernel

theorem witness_StoreFrame : (ready0 0x51 (at_ 3 59 + at_ 1 54) (fun c => { c with g := vset c.g 1 0x7FFFF8 })
    && ((at0 0 0x51 (at_ 3 59 + at_ 1 54)).core 0).skillet.wf) = true := by decide +kernel

theorem witness_EndAndAbort : (ready0 0x70 0 && ready0 0x71 0xABCD && (at0 0 0x71 0xABCD).runsAlone 0) = true := by decide +kernel

/-- A RACE whose deadline beat is the present one, with a fetch descriptor at g1; and the two joins. -/
theorem witness_RaceResults : (ready0 0x49 (at_ 1 62) (fun c => c.setRace 1 .won) && ready0 0x49 (at_ 1 62) (fun c => c.setRace 1 .lost)
    && ready0 0x48 (at_ 1 54 + at_ 1 24) && !raceDescBad (((at0 0 0x48 (at_ 1 54 + at_ 1 24)).core 0).skillet.readN 0x1000 64)
    && decide (((at0 0 0x48 (at_ 1 54 + at_ 1 24) (fun c => { c with beatBase := 0 })).core 0).beatBase + 1
      ≤ ((at0 0 0x48 (at_ 1 54 + at_ 1 24)).modBeat fun b => { b with count := 1 }).beat.count)) = true := by decide +kernel

theorem witness_PredicatedOff : ((run (instWord 0 1 { hdr with pneg := true } (toW abc)) setup).seqReady 0 1 { hdr with pneg := true } (toW abc)
    && !(run (instWord 0 1 { hdr with pneg := true } (toW abc)) setup).predOn 0 { hdr with pneg := true }) = true := by decide +kernel

theorem witness_SequencerTraps : (ready0 0x31 (at_ 1 48 + 65535) && ready0 0x41 (at_ 1 54) (fun c => { c with g := vset c.g 1 8 })
    && ready0 0x42 7 (fun c => { c with calls := List.replicate 16 16 }) && ready0 0x43 0
    && ready0 0x48 (at_ 1 54 + at_ 1 24) (fun c => c.setRace 0 .won) && ready0 0x49 0
    && ready0 0x50 (at_ 1 54 + 4) && ready0 0x51 (at_ 1 54 + 0x7FF000) && ready0 0x51 (at_ 3 59 + 0x3F8)
    && (at0 0 0x31 0).runsAlone 0) = true := by decide +kernel

theorem witness_SequencerTraps_illegal : ((at0 0 0x12 (at_ 3 59 + 64)).fetchesNow 0 0 0x12 hdr (toW (at_ 3 59 + 64))
    && seqBad ((at0 0 0x12 (at_ 3 59 + 64)).entryAt 0 0 0x12 hdr (toW (at_ 3 59 + 64)))
    && ((at0 0 0 0 fun c => { c with pc := 1024 }).core 0).fetches
    && decide (((at0 0 0 0 fun c => { c with pc := 1024 }).core 0).progEnd ≤ 1024)) = true := by decide +kernel

theorem witness_FaultStopsCommand : (((at0 0 0 0).core 0).busy && ((at0 0 0 0).core 0).cmd == some 7
    && (at0 0 0 0).getCmd 7 == some cmd0) = true := by decide +kernel

/-! ## Witnesses: the engines -/

/-- A set whose tile is loaded. -/
def loaded : StatSet := { st := .loaded, fmt := 0, kblk := 1 }

theorem witness_MatrixEngineBegins : (eng0 1 1 (at_ 1 62) && eng0 1 2 (at_ 1 52 + at_ 1 47)
    && eng0 1 4 (at_ 0 56 + at_ 1 48 + at_ 1 44 + at_ 2047 21) (fun c => { c with me := { c.me with active := vset c.me.active 0 loaded } })) = true := by decide +kernel

theorem witness_FillAndStoreBegin : (eng0 1 3 (at_ 1 48 + at_ 1 31 + at_ 1 21 + at_ 2 16)
    && eng0 1 5 (at_ 2047 53 + at_ 1 41 + at_ 1 36 + at_ 2 31)) = true := by decide +kernel

/-- VE fields: a FP32 operation of 2 elements (g4) from the Skillet at g1, with scalar g2, to the Skillet at g3. -/
def veB (fs fd bk fn rd rb rc ck : Nat) : Nat :=
  at_ rd 59 + at_ 1 54 + at_ rb 49 + at_ rc 44 + at_ 4 39 + at_ fs 29 + at_ fd 24 + at_ bk 18 + at_ ck 16 + at_ fn 8

/-- g3 is 0x3000 and g4 is 2. -/
def veSet (c : CoreSt) : CoreSt := { c with g := vset (vset c.g 3 0x3000) 4 2 }

/-- A result of a VE operation has its writes past the program region. -/
def veOk (x : Except VeErr (Srcs × Opd × VeRes)) : Bool :=
  match x with
  | .ok (_, _, r) => r.wr.all fun w => decide (0x400 ≤ w.bit / 8)
  | .error _ => false

theorem witness_VectorEngineBegins :
    ([1, 2, 3, 5, 6].all fun op => eng0 2 op (veB 16 16 2 0 3 2 0 0) veSet
      && veOk (((at0 2 op (veB 16 16 2 0 3 2 0 0) veSet).issued 0 hdr).elementwise 0
        ((at0 2 op (veB 16 16 2 0 3 2 0 0) veSet).entryAt 0 2 op hdr (toW (veB 16 16 2 0 3 2 0 0))) fun x y _ => x.add 0 y)) = true := by decide +kernel

/-- g4 is 2 with G 1. -/
def veSlice (c : CoreSt) : CoreSt := { veSet c with g := vset (veSet c).g 4 0x100000002 }

/-- g4 is 32, and COMBINE's block at g2 names one product, exponents at 0x4000 and 0x4800, and row pitch 128. -/
def veComb (c : CoreSt) : CoreSt :=
  { veSet c with
    g := vset (veSet c).g 4 32
    skillet := (((c.skillet.writeLE 0x2002 1 1).writeLE 0x2008 4 128).writeLE 0x2010 8 0x4000).writeLE 0x2018 8 0x4800 }

/-- A function table of one segment from 0 to 1 at g1. -/
def veTab (c : CoreSt) : CoreSt := { c with skillet := (c.skillet.writeLE 0x100C 4 0x3F800000).writeLE 0x1010 4 0x3F800000 }

/-- The result of a VE operation with a result function of its own is taken on the state that its instruction meets. -/
def veRuns (op b : Nat) (f : CoreSt → CoreSt) (r : State → Entry → Bool) : Bool :=
  eng0 2 op b f && r ((at0 2 op b f).issued 0 hdr) ((at0 2 op b f).entryAt 0 2 op hdr (toW b))

/-- The same where the destination may be none. -/
def veOk' (x : Except VeErr (Srcs × Option Opd × VeRes)) : Bool :=
  match x with
  | .ok (_, _, r) => r.wr.all fun w => decide (0x400 ≤ w.bit / 8)
  | .error _ => false

/-- FMA, BIT, CVT, REDUCE, COMPRESS and EXPAND; and FUNC of an empty slot, which is fault 0x45. -/
theorem witness_VectorEngineBegins_rows :
    (veRuns 4 (veB 16 16 2 0 3 2 2 2) veSet (fun s e => veOk (s.elementwise 0 e fun x y z => (x.mul y).add e.ve.rnd z))
    && veRuns 8 (veB 0x13 0x13 2 3 3 2 0 0) veSet (fun s e => veOk (s.bitRun 0 e))
    && veRuns 10 (veB 16 0x13 0 0 3 0 0 0) veSet (fun s e => veOk (s.convertOp 0 e))
    && veRuns 0x10 (veB 16 16 0 0 3 0 0 0) veSlice (fun s e => veOk (s.reduceRun 0 e))
    && veRuns 0x20 (veB 16 16 0 7 3 0 0 0) veSet (fun s e => match s.funcRun 0 e with
      | .error k => k.code == 0x45
      | .ok _ => false)
    && veRuns 0x30 (veB 16 16 0 5 3 0 0 0) veSet (fun s e => veOk (s.compressRun 0 e))
    && veRuns 0x31 (veB 16 16 0 5 3 0 0 0) veSet (fun s e => veOk (s.expandRun 0 e))) = true := by decide +kernel

/-- UNARY, CMP, SLICE and its reassembly, FTLOAD and VSEED. -/
theorem witness_VectorEngineBegins_others :
    (veRuns 7 (veB 16 16 0 2 3 0 0 0) veSet (fun s e => veOk (s.elementwise 0 e fun x _ _ => x))
    && veRuns 9 (veB 16 0 2 6 3 2 0 0) veSet (fun s e => veOk' (s.cmpRun 0 e))
    && veRuns 0x38 (veB 16 23 0 2 3 2 1 0) veSlice (fun s e => veOk' (s.sliceRun 0 e))
    && veRuns 0x38 (veB 23 16 0 34 3 2 1 0) veSlice (fun s e => veOk (s.joinRun 0 e))
    && veRuns 0x21 (at_ 1 54) veTab (fun s _ => !ftBad ((s.core 0).skillet.readN 0x1000 64))
    && eng0 2 0x3F (at_ 1 54)) = true := by decide +kernel

/-- COMBINE of one row of 32 wide elements. -/
theorem witness_VectorEngineBegins_combine :
    let h : Hdr := { hdr with mod := 1 }
    let b := toW (at_ 3 59 + at_ 1 54 + at_ 2 49 + at_ 4 39 + at_ 19 29 + at_ 16 24 + at_ 1 20)
    let s := run (instWord 2 0x39 h b) fun c => veComb (setup c)
    (s.engReady 0 2 0x39 h b && veOk' ((s.issued 0 h).combineRun 0 (s.entryAt 0 2 0x39 h b))) = true := by decide +kernel

/-- An open window of 4,096 bytes at 0x1000 in slot 0. -/
def win0 (c : CoreSt) : CoreSt := { c with wins := vset c.wins 0 { isOpen := true, base := 0x1000, length := 0x1000 } }

/-- A window of 8,192 bytes at 0x1000 opens in slot 15, slot 0 closes, and a credit of 64 bytes at its end goes to core 191. -/
theorem witness_ExchangeInstructionsBegin :
    let g := fun (c : CoreSt) => win0 { c with g := vset (vset (vset c.g 5 (toW (191 * 2 ^ 14))) 6 (toW 0xFC0)) 7 64 }
    (eng0 5 1 (at_ 15 60 + at_ 1 48 + at_ 2 43)
    && !((at0 5 1 (at_ 15 60 + at_ 1 48 + at_ 2 43)).core 0).meetsWindow 0x1000 0x2000
    && (((at0 5 1 (at_ 15 60)).core 0).taken hdr).signalFits hdr
    && ((at0 5 1 (at_ 15 60)).core 0).progEnd == 0x400
    && eng0 5 2 (at_ 0 60) win0 && ((win0 {}).wins[0]).isOpen
    && eng0 5 3 (at_ 5 53 + at_ 5 48 + at_ 6 43 + at_ 7 38) g) = true := by decide +kernel

/-- PUT of 8,192 bytes in counter mode, and in credit mode with a credit that covers it. -/
theorem witness_ExchangeInstructionsBegin_put : (eng0 5 4 (at_ 1 59 + at_ 1 48 + at_ 2 33)
    && !putOutside ((at0 5 4 (at_ 1 59 + at_ 1 48 + at_ 2 33)).entryAt 0 5 4 hdr (toW (at_ 1 59 + at_ 1 48 + at_ 2 33)))
    && eng0 5 4 (at_ 1 48 + at_ 2 33) (fun c => { c with credits := [{ pkg := 0, core := 0, win := 0, offset := 0, length := 0x2000 }] })
    && !putOutside ((at0 5 4 (at_ 1 48 + at_ 2 33)).entryAt 0 5 4 hdr (toW (at_ 1 48 + at_ 2 33)))) = true := by decide +kernel

theorem witness_ExchangeInstructionsBegin_rdv : (eng0 5 5 (at_ 1 56) fun c => { c with group := true, nrdv := 3, lastK := some 0 }) = true := by decide +kernel

/-- A Stockpot object of one extent that the command on core 0 may read, and a fetch of 64 bytes of it to 0x2000. -/
def objA : Obj :=
  { idx := 1, gen := 1, st := .resident, owner := 0, part := 0, size := 65536
    cur := { tier := 0, press := false, place := 0, wheres := [0], charge := 1, mapAddr := 0, hostAddr := 0, content := Mem.zero } }

/-- The package that holds it, with every transfer tag held. -/
def tagsHeld (c : CoreSt) : CoreSt :=
  let g : Granule := { kind := .fetch, xfer := 99, desc := 0, handle := 0, pieces := [], obj := 0, span := 0, tier := 0, slice := 0
                       data := [], staged := false }
  { c with sm := { c.sm with tags := Vector.replicate 64 { epoch := 1, g := some (0, g) } } }

/-- The object in the table, and two descriptors of a fetch of it at g1. -/
def fetchA (s : State) : State :=
  ((s.modTongs fun t => { t with objs := [objA] }).modCore 0 fun c =>
    { c with skillet := [0, 1].foldl (fun (m : Mem) i =>
        ((m.writeLE (0x1000 + 64 * i) 4 (2 ^ 20 + 1)).writeLE (0x1010 + 64 * i) 4 0x2000).writeLE (0x1014 + 64 * i) 4 64) c.skillet })

/-- Two descriptors from g1; and two elements of 2 bytes, indices at g1, to or from the Skillet at g2. -/
theorem witness_StreamInstructionsBegin :
    let x := fetchA (at0 3 1 (at_ 1 59 + at_ 4 54) fun c => tagsHeld (veSet c))
    let b := at_ 3 59 + at_ 1 49 + at_ 4 44 + at_ 2 39
    (x.engReady 0 3 1 hdr (toW (at_ 1 59 + at_ 4 54)) && (x.core 0).sm.freeTagNo == none
    && ([0, 1].all fun i => (x.descFault 0 ((x.core 0).skillet.readN (0x1000 + 64 * i) 64)).isNone)
    && ([1, 2].all fun op => eng0 4 op b (fun c => tagsHeld (veSet c)))
    && fld (toW b) 33 31 == 0 && ((veSet (setup {})).getG (fld (toW b) 43 39)).toNat == 0x2000
    && ((veSet (setup {})).getG (fld (toW b) 48 44)).toNat == 2 && ((veSet (setup {})).getG (fld (toW b) 53 49)).toNat == 0x1000
    && fld (toW b) 38 34 == 0) = true := by decide +kernel

/-! ## Witnesses: the clock, control space, beat unit, resets -/

/-- A package that is READY and FREQ_LOCKED at edge 1,000 and beat 2,000, with its four dies ACTIVE. -/
def up : State :=
  { State.reset with
    power := { State.reset.power with ready := true, inReset := false, stage := 6, stateKept := true }
    dies := vmap State.reset.dies fun d => { d with st := .active }
    beat := { State.reset.beat with lock := .freqLocked, edge := 1000, count := 2000 } }

/-- A message of tag 5 from unit 12 of package 9, taken from the host port. -/
def via : Via := { port := 16, src := 9, unit := 12, tag := 5 }

/-- The same message, taken from fabric port 3. -/
def viaF : Via := { via with port := 3 }

/-- The state that an answer goes on in. -/
def nextOf (a : Answer) : State :=
  match a with
  | .next t => t
  | _ => State.reset

theorem witness_StepRunsFrontCommand : ({ up with pending := [.pllLock, .pairRetry] } : State).pending = .pllLock :: [.pairRetry] := rfl

theorem witness_IdleStepIsOneBeat : (State.reset.pending == [] && State.reset.beat.lock == .unlocked && up.pending == []
    && up.beat.lock == .freqLocked && up.beat.sysCount == none && decide (up.lid.riskBeats < 65536)
    && decide (up.lid.risk + 255 < up.lid.high)) = true := by decide +kernel

/-- A misaligned and a narrow access, an unoccupied offset, and a core block before boot step 4; and a read of a register. -/
theorem witness_RegisterAccess : (up.admits via 0x21 && up.admits via 0x22 && (csrAt 0x300010).isSome && (csrAt 0x700000).isNone && (csrAt 0x1000000).isSome
    && (csrAt 0x1000000).all (fun r => State.reset.csrHeld 0x1000000 r) && (csrAt 0x300010).all (fun r => !up.csrHeld 0x300010 r)) = true := by
  decide +kernel

theorem witness_RegisterWritesReadBack : (up.admits via 0x22 && up.power.ready) = true := by decide +kernel

theorem witness_NamedRegisterWrites : (up.admits via 0x22 && up.power.ready
    && (let s := up.modBeat fun b => { b with root := true, lock := .phaseLocked }
        s.admits via 0x22 && s.power.ready && s.beat.root && s.beat.lock == .phaseLocked)
    && !up.beat.root && !up.csrHeld (0x1000000 + 0x10000 * 191) (.core 191 (.ldlReg 2))) = true := by decide +kernel

/-- A log below its limit and one at it, and the state after power-on with the limit off. -/
theorem witness_LogRecords :
    (!(up.log.roll up.now).blocks 0x3F
    && (let s : State := { up with log := { up.log with limit := 1, written := [(0x3F, 1)] } }
        (s.log.roll s.now).blocks 0x3F)
    && (let s : State := { State.reset with log := { State.reset.log with limit := 0 } }
        s.power.inReset && s.log.ring == [] && s.log.limit == 0)) = true := by decide +kernel

/-- A member of a group of states that differ from `up` in the beat unit. -/
def beatUp (f : BeatSt → BeatSt) : State := up.modBeat f

theorem witness_LockStates :
    (let a := beatUp fun b => { b with lock := .unlocked }
     let h := beatUp fun b => { b with holdover := true, elapsed := 2 ^ 20, lock := .timeLocked }
     let p := beatUp fun b => { b with lock := .phaseLocked, pendingSeed := some 1 }
     let r := (({ up with cmd := { up.cmd with cmds := [cmd0] } } : State).modCore 0 fun c => { c with st := .running, cmd := some 7 })
     a.beat.lock == .unlocked && !a.power.inReset && r.beat.lock != .unlocked && r.cmd.cmds == [cmd0] && cmd0.group.isNone
     && (r.core 0).cmd == some 7 && (r.core 0).busy
     && h.beat.holdover && h.beat.elapsed == 2 ^ 20 && h.beat.pendingSeed == none && h.cmd.cmds == []
     && p.beat.lock == .phaseLocked && p.beat.sysCount == none && decide (p.beat.residue < 65536)) = true := by decide +kernel

/-- BEAT_SYNC 16 and 17 cycles from a pulse edge, the second of two edges that agree, a missing pulse, and 2^20 beats without a
root. -/
theorem witness_PulsesAndMarkers :
    (let p := beatUp fun b => { b with mode := 3, lock := .phaseLocked, count := 65536, residue := 0, beatLen := 64 }
     let f := beatUp fun b => { b with mode := 3, lock := .freqLocked, beatLen := 64, edge := 65546, prevPulse := some (10, 4) }
     let m := beatUp fun b => { b with mode := 3, lock := .timeLocked, lastGood := some 10, edge := 65546 }
     let n := beatUp fun b => { b with mode := 3, lockEdge := 10, edge := 10 + 2 ^ 20 }
     p.beat.mode == 3 && !p.beat.holdover && decide (2 * (17 : Int) < p.beat.beatLen) && p.beat.fromPulse p.beat.system == 0
     && p.beat.ignoredRun == 0 && f.beat.lock == .freqLocked && f.beat.edge == 10 + 65536 && decide (((20 : Int) - 4).natAbs ≤ 16)
     && (beatUp fun b => { b with mode := 1 }).beat.mode != 3
     && !m.beat.holdover && m.beat.lastGood == some 10 && m.beat.edge == 10 + 65536
     && !n.beat.rootValid && !n.beat.markerSeen && !n.beat.noRootLogged && n.beat.edge == n.beat.lockEdge + 2 ^ 20) = true := by decide +kernel

/-- A marker at a TIME_LOCKED package, the second of two at a PHASE_LOCKED one, and an edge at which one is sent. -/
theorem witness_PulsesAndMarkers_markers :
    (let t := beatUp fun b => { b with mode := 3, lock := .timeLocked, count := 65536 * 9 }
     let p := beatUp fun b => { b with mode := 3, lock := .phaseLocked, count := 65536 * 2, residue := 0, beatLen := 64, edge := 65546
                                       occ := some { edge := 10, value := 4, agree := true } }
     t.beat.lock == .timeLocked && t.beat.mode == 3 && t.beat.system % 65536 == 0
     && (p.port 3).lat == 0 && decide (0 < p.beat.beatLen) && p.beat.fromPulse p.beat.system == 0 && p.beat.edge == 10 + 65536) = true := by
  decide +kernel

/-- Idle blocks take their resets; core 192, region 16 and die 4 do not exist; and the reset of core 5 runs. -/
theorem witness_BlockResets : (up.admits via 0x22 && up.power.ready && up.regionIdle 15 && !(up.region 15).inReset && up.dieIdle 3
    && !up.resetting (.die 3) && (nextOf (exec (.coreReset via 5) up)).resetting (.core 5)) = true := by decide +kernel

/-- The boot in step `k`, from the board's memory, with the state kept. -/
def bootAt (k : Nat) : State :=
  { up with
    power := { up.power with ready := false, stage := k, bootSrc := 2 }
    dies := State.reset.dies
    log := { up.log with limit := 0 } }

theorem witness_BootSteps : (([1, 2, 3, 4, 5].all fun k => !(bootAt k).power.inReset && !(bootAt k).power.ready && !(bootAt k).power.failed
      && (bootAt k).power.stage == k) && (bootAt 1).beat.lock != .unlocked && (bootAt 3).cfg.active.isNone && (bootAt 3).cfg.staged.isNone
    && !(bootAt 3).fw.revertLog && (bootAt 4).power.stateKept && (bootAt 5).integ.flashRows == [] && (bootAt 5).log.limit == 0
    && !(bootAt 5).lid.partnerValid && ((bootAt 1).port 16).st != .active) = true := by decide +kernel

/-! ## Witnesses: firmware, attestation, configuration, sideband -/

/-- `up` with the firmware unit changed. -/
def fwUp (f : FwSt → FwSt) : State := up.modFw f

/-- An image that is whole and one page long, of zeros, which a check refuses. -/
def zeroImage : State := fwUp fun f => { f with busy := 1, slotB := { st := 1 }, got := 4096, image := Mem.zero }

theorem witness_FirmwareOperations : (up.admits via 0x22 && up.power.ready && up.fw.busy == 0 && !up.fw.trial
    && ((fwUp fun f => { f with slotB := { st := 2 } }).fw.slot true).st == 2 && !up.fw.active
    && (fwUp fun f => { f with busy := 2 }).fw.busy == 2 && (fwUp fun f => { f with busy := 3 }).fw.busy == 3
    && zeroImage.fw.busy == 1 && decide (4096 ≤ zeroImage.fw.got)
    && decide (imageLen (zeroImage.fw.image.readN 0 4096) ≤ zeroImage.fw.got)
    && (zeroImage.imageBad (zeroImage.fw.image.readN 0 4096)).isSome) = true := by decide +kernel

theorem witness_Attestation : (up.admits via 0x22 && up.power.ready && up.fw.captured == [] && !up.retired 191 && (fwUp fun f => { f with captured := [1] }).fw.captured != []) = true := by decide +kernel

/-- A record that is written, one that is written and waits for a reset, and one whose beat is the next. -/
theorem witness_ConfigurationRecords :
    (let w := up.modCfg fun c => { c with writing := some { gen := 3, actBeat := 9 } }
     let r := up.modCfg fun c => { c with staged := some { gen := 3, actBeat := 2001 }, valid := true }
     let z := up.modCfg fun c => { c with writing := some { gen := 3, atReset := true } }
     up.admits via 0x22 && w.cfg.writing.all (fun r => !r.atReset) && w.cfg.active.isNone && z.cfg.writing.all (fun r => r.atReset)
     && r.power.ready && r.cfg.staged.all (fun x => !x.atReset && decide (r.beat.count + 1 = x.actBeat)) && r.cfg.valid && !r.cfg.armed
     && r.beat.sysCount == none && r.beat.lock != .unlocked && !r.lid.partnerValid) = true := by decide +kernel

theorem witness_Sideband : (up.sideHears up.sideStatic && !up.sideHears (up.sideStatic + 1) && up.side.dynamic.isNone
    && (vget up.power.rails 10).st != 2) = true := by decide +kernel

/-! ## Witnesses: power, temperature, counters -/

/-- Die 2 of `up` changed. -/
def dieUp (f : DieSt → DieSt) : State := up.modDie 2 f

theorem witness_RailEvents :
    (let e := dieUp fun d => { d with holdDue := some 1001, causes := [2] }
     let c := (dieUp fun d => { d with st := .brownHold, holdEdge := 980, causes := [2] }).modRail 2 fun x => { x with recovered := 990 }
     let g := ((dieUp fun d => { d with st := .brownHold, holdEdge := 980, causes := [2] }).modRail 2 fun x => { x with st := 1 }).modBeat
       fun b => { b with edge := 980 + 53125 }
     (railDies 2).contains 2 && (up.die 2).st == .active && !(railDies 2).contains 3
     && (e.die 2).holdDue == some (e.beat.edge + 1) && e.beat.lock != .unlocked && (e.die 0).holdDue == none
     && ((up.modRail 3 fun x => { x with st := 1 }).power.rails[3]).st != 0
     && (c.die 2).st == .brownHold && (vget c.power.rails 2).st == 0 && decide ((vget c.power.rails 2).recovered < c.beat.edge)
     && c.heldMsgs.isEmpty && c.cmd.cmds.isEmpty && !(c.core 0).busy
     && (vget g.power.rails 2).st == 1 && decide ((g.die 2).holdEdge + 53125 ≤ g.beat.edge)) = true := by decide +kernel

/-- A governor period that ends now, with the cap as it was and with another; readings 96, 100, 94 and 99 with T_WARN 95. -/
theorem witness_PowerPeriodsAndRootPort :
    (let g := up.modPower fun p => { p with govAt := 744, capInForce := 2, thermAt := Vector.replicate 5 744 }
     let k := g.modPower fun p => { p with capInForce := 0 }
     g.beat.edge == g.power.govAt + 256 && g.power.cap == g.power.capInForce && k.power.cap != k.power.capInForce
     && g.power.tWarn == 95 && vget g.power.tmax 4 == 0 && g.beat.edge == vget g.power.thermAt 3 + 256
     && g.beat.edge == vget g.power.thermAt 4 + 256 && !vget g.power.throttled 4) = true := by decide +kernel

/-- A clear of port 16's counters that is taken, one of port 17 and one of bank 0xB that are not, and one of each bank that is due. -/
theorem witness_CounterClears :
    (up.admits via 0x22 && up.power.ready && up.log.clears.isEmpty && decide (16 < bankTargets 2) && bankTargets 2 == 17 && bankTargets 0xB == 0
    && ([0, 1, 2, 3, 4, 5, 6, 7, 8, 9, 0xA, 0xF].all fun k => decide (0 < bankTargets k))
    && (let s : State := { up with log := { up.log with clears := [{ bank := 0, target := 191, at_ := none, edge := 999 }] } }
        s.log.clears == [{ bank := 0, target := 191, at_ := none, edge := 999 }] && s.beat.edge == 999 + 1 && !s.retired 191)) = true := by
  decide +kernel

/-! ## Witnesses: the ports -/

/-- `up` at edge 100,000,000 with port `p` changed. -/
def portUp (p : Nat) (f : Port → Port) : State := (up.modBeat fun b => { b with edge := 100000000, count := 0x27FF }).modPort p f

/-- A port that is in training or retraining at a step. -/
def training (st : PortState) (step : TrainStep) : State := portUp 3 fun q => { q with st := st, step := step }

theorem witness_PortTrainingAndWidths :
    (([(.detect : TrainStep), .equalise, .lock].all fun k => ((training .training k).port 3).step == k && ((training .training k).port 3).st == .training)
    && popc ({ (training .training .lock).port 3 with excluded := maskPlus 0 (maskMinus 0xFF 0x0F) } : Port).wanted 8 == 4
    && popc ({ (training .training .lock).port 3 with excluded := maskPlus 0 (maskMinus 0xFF 0x07) } : Port).wanted 8 == 3
    && ((training .retraining .lock).port 3).st == .retraining
    && (let d := portUp 16 fun q => { q with st := .down, since := 100000000 - 2 ^ 25 }
        (d.port 16).st == .down && d.portOn 16 && d.beat.edge == (d.port 16).since + 2 ^ 25 && (d.port 16).allowed != 0)
    && (let i := portUp 16 fun q => { q with st := .training, step := .identify }
        (i.port 16).identifies && decide ((i.port 16).echoes.length < 64))
    && (let i := (portUp 16 fun q => { q with
          st := .training, step := .identify, ownCheck := some true, farVerdict := some true, echoes := List.replicate 64 10 }).modPower
            fun p => { p with ready := false }
        let q := i.port 16
        q.ownCheck == some true && q.farVerdict == some true && q.echoes.length == 64 && decide (q.latency ≤ 408)
        && popc (maskBoth 0xF0 q.wanted) 8 == 4 && q.waiting == Vector.replicate 6 [] && !i.power.ready && i.power.stage != 1)) = true := by
  decide +kernel

/-- A port that carries flits on all its lanes, with the two flits 4 and 5 unacknowledged. -/
def carrying (f : Port → Port) : State :=
  portUp 3 fun q => f { q with st := .active, active := 0xFF, unacked := [{ seq := 4, vc := 0, mstart := 0, payload := [1, 2] }, { seq := 5, vc := 0, mstart := 0, payload := [1, 2] }] }

theorem witness_PortTrainingAndWidths_widths :
    (let s := carrying fun q => { q with unacked := [] }
     let q := s.port 3
     s.admits via 0x22 && s.power.ready && q.carries && q.laneOff == 0 && popc ({ q with laneOff := 0x1F } : Port).wanted 8 == 3
     && popc ({ q with laneOff := 0x0F } : Port).wanted 8 == 4 && ({ q with laneOff := 0x0F } : Port).wanted != q.active
     && q.widthTo == none && q.unacked == [] && q.waiting == Vector.replicate 6 []
     && ((carrying fun q => { q with unacked := [], widthTo := some 0xF }).port 3).widthTo == some 0xF) = true := by decide +kernel

theorem witness_PortFlits :
    (let s := carrying id
     let q := s.port 3
     q.carries && q.waiting == Vector.replicate 6 [] && decide (s.lid.riskFlits + q.unacked.length < 1024) && q.unacked.length == 2
     && q.nakRun == 0 && ((carrying fun q => { q with nakOut := true }).port 3).nakOut
     && ((carrying fun q => { q with nakRun := 7, nakSeq := 4 }).port 3).nakRun == 7 && q.st == .active && s.fpAt 0 == 0
     && s.beat.lock != .unlocked && s.beat.sysCount == none && s.beat.count % 4096 == 0x7FF
     && (let l := carrying fun q => { q with lastKeepalive := 100000000 - 12288 }
         l.beat.edge == (l.port 3).lastKeepalive + 12288)) = true := by decide +kernel

/-- The DATA flit of SEQ 0 with an empty payload, its CRC and its parity bytes. -/
def flit0 : List Byte :=
  ((([0x10, 0] : List Nat) ++ List.replicate 230 0) ++ [82, 176, 44, 90, 49, 144, 225, 42, 102, 100, 247, 130, 114, 202, 62, 65, 128, 191, 121, 136, 14, 1, 148, 11]).map toB

/-- A flit is whole: both codewords are correct, its CRC agrees, and it is a DATA flit of SEQ `n`. -/
def wholeFlit (raw : List Byte) (n : Nat) : Bool :=
  let d := (fecDecode (raw.map (·.toNat))).1
  raw.length == 256 && (fecDecode (raw.map (·.toNat))).2 == ([], 0) && flitCrc d == crc64 (d.take 232) && (flitFields d).ftype == 1
    && (flitFields d).h == {} && (flitFields d).seq == n

set_option maxRecDepth 20000 in
/-- The flit of SEQ 0 at a port that expects 0, and at one that expects 1. -/
theorem witness_PortFlits_data : (wholeFlit flit0 0 && ((carrying id).port 3).rxExpect == 0
    && ((carrying fun q => { q with rxExpect := 1 }).port 3).rxExpect == 1 && !((carrying id).port 3).nakOut) = true := by decide +kernel

set_option maxRecDepth 20000 in
/-- A flit of zeros passes the code and fails its CRC. -/
theorem witness_PortFlits_crc :
    (let d := fecDecode ((List.replicate 256 (0 : Byte)).map (·.toNat))
     d.2.2 == 0 && flitCrc d.1 != crc64 (d.1.take 232)) = true := by decide +kernel

/-! ## Witnesses: the events of a core -/

/-- A command on cores 3 and 4. -/
def cmd34 : Cmd := { cmd0 with cores := [3, 4] }

/-- `up` at beat 100 and edge 90 with the command on core 3, and `f` done to the core. -/
def onCore (f : CoreSt → CoreSt) : State :=
  ({ up with cmd := { up.cmd with cmds := [cmd34] }, beat := { up.beat with count := 100, edge := 90 } } : State).modCore 3
    fun c => f { c with st := .running, cmd := some 7, progLen := 1024, pc := 16, identity := 77, epoch := 5 }

/-- An instruction of an engine of core 3 in execution, which signals 3 on token 2. -/
def flightOf (q op : Nat) (tags : List Nat := []) : Flight :=
  { e := { q := q, op := op, h := { stok := 2, sval := 3 }, b := 0, pc := 0, null := false }, tags := tags }

theorem witness_CoreProgress :
    (let c := (onCore id).core 3
     let far := (onCore fun c => { c with pc := 4096 }).core 3
     let m := (onCore fun c => { c with flights := vset c.flights 0 [flightOf 1 5] }).core 3
     let v := (onCore fun c => { c with flights := vset c.flights 1 [flightOf 2 1] }).core 3
     let r := (onCore fun c => { c with races := vset c.races 3 { st := .pending, alt := 5, dl := 50 }, beatBase := 50 }).core 3
     let nb := onCore fun c => { c with cur := some { q := 0, op := 0, h := { nb := 60 }, b := 0, pc := 32, null := false }, beatBase := 50 }
     let w := onCore fun c => { c with st := .waitingStart, beatBase := 120 }
     c.fetches && !c.lineHeld && decide (c.pc < c.progEnd) && far.fetches && !far.lineHeld && decide (far.progEnd ≤ far.pc)
     && m.executes 1 (flightOf 1 5) && v.executes 2 (flightOf 2 1)
     && (vget r.races 3).st == .pending && decide (r.beatBase + 50 ≤ 100) && r.busy && r.cur.isNone
     && ({ r with races := vset r.races 3 {} } : CoreSt).enginesIdle
     && (nb.core 3).busy && (nb.core 3).enginesIdle && nb.beat.lock != .unlocked && nb.beat.sysCount.isNone && decide (nb.now < 50 + 60)
     && (w.core 3).st == .waitingStart && (w.core 3).cur.isNone && (w.core 3).enginesIdle && decide (w.now < 120)
     && c.busy && c.cur.isNone && c.enginesIdle) = true := by decide +kernel

theorem witness_CoreEnds :
    (let d := onCore fun c => { c with st := .draining }
     let a := (onCore fun c => { c with st := .aborting }).modCore 4 fun c => { c with st := .aborting, cmd := some 7 }
     let o := onCore fun c => { c with st := .aborting, cmd := none }
     let w := onCore fun c => { c with wdog := 40, noProg := 7 }
     let k := (onCore id).modCmd 7 fun k => { k with kill := some (0x1C, 1, 2, 3), killEdge := 90 }
     (d.core 3).st == .draining && (d.core 3).cur.isNone && (d.core 3).enginesIdle && (d.core 3).puts.isEmpty && (d.core 3).cmd == some 7
     && d.getCmd 7 == some cmd34 && cmd34.stage == .running && cmd34.cores.contains 4 && cmd34.ended.isEmpty
     && (a.core 3).st == .aborting && !(a.core 3).storesOut && (a.core 4).cmd == some 7 && (a.core 4).st != .idle
     && (o.core 3).st == .aborting && (o.core 3).cmd.isNone
     && (w.core 3).wdog != 0 && !w.watchExempt 3 && !(w.core 3).progress && w.beat.lock != .unlocked
     && (k.getCmd 7).any (fun k => k.kill == some (0x1C, 1, 2, 3) && decide (k.killEdge ≤ 90) && k.stage == .running)
     && k.beat.edge == 90 && (k.core 3).cmd == some 7 && (k.core 3).busy) = true := by decide +kernel

/-! ## Witnesses: Exchange messages -/

/-- An arrival of 64 bytes for window 15 of core 3 at offset 64, in counter mode or not. -/
def arrival (mode : Bool) : PutArrival :=
  { srcPkg := 0, srcCore := 0, dstCore := 3, tag := 0, identity := 77, epoch := 5, win := 15, mode := mode, offset := 64, index := 0
    data := List.replicate 64 1 }

/-- Core 3 with window 15 open, 128 bytes long, its token at 65,534. -/
def windowed (mode : Bool) (f : CoreSt → CoreSt) : State :=
  onCore fun c => f { c with
    wins := vset c.wins 15 { isOpen := true, mode := mode, tk := 9, epoch := 5, base := 4096, length := 128 }
    t := vset c.t 9 65534 }

/-- A credit of core 12 of package 9 that covers the arrival. -/
def ownCredit (offset length : Nat) : OwnCredit := { tag := 5, win := 15, pkg := 9, core := 12, offset := offset, length := length, tk := 10 }

theorem witness_PutArrives :
    (let w := windowed true id
     let c := w.core 3
     let k := (windowed false fun c => { c with ownCredits := [ownCredit 0 128] }).core 3
     w.admitsCore viaF 0x10 3 && !(arrival true).bad && !(arrival false).bad && ((onCore fun c => { c with identity := 1 }).core 3).identity != 77
     && c.identity == 77 && (vget c.wins 15).epoch == 5 && c.st == .running
     && !(vget ((onCore id).core 3).wins 15).isOpen && (vget c.wins 15).isOpen && (vget c.wins 15).mode
     && ((windowed false id).core 3).ownCredits.isEmpty && c.quiet && vget c.t 9 == 65534
     && k.ownCredits == [ownCredit 0 128] && decide ((ownCredit 0 128).written + 64 < 128) && (ownCredit 64 64).written + 64 == 64
     && vget k.t 10 == 0) = true := by decide +kernel

theorem witness_ExchangeAnswers :
    (let sp : SentPut := { tag := 5, pkg := 1, core := 2, src := 4096, offset := 0, win := 1, mode := true, length := 64, index := 0, pc := 32, sentEdge := 0 }
     let p := (onCore fun c => { c with puts := [sp], flights := vset c.flights 4 [flightOf 5 4 [5]] }).core 3
     let full := (onCore fun c => { c with credits := List.replicate 32 { pkg := 9, core := 12, win := 4, offset := 0, length := 64 } }).core 3
     let g := (onCore fun c => { c with ownCredits := [ownCredit 64 64], flights := vset c.flights 4 [flightOf 5 3 [5]] }).core 3
     let r := (onCore fun c => { c with ownCredits := [{ ownCredit 64 64 with full := true }] }).core 3
     !(onCore id).noCore 3 && ((onCore id).die 0).st != .brownHold && ([0x30, 0x11, 0x31].all fun m => (onCore id).admits viaF m) && p.puts == [sp] && p.awaits 5 5 (flightOf 5 4 [5])
     && ((onCore id).core 3).quiet && ((onCore id).core 3).credits.isEmpty && full.quiet && full.credits.length == 32
     && g.ownCredits == [ownCredit 64 64] && g.awaits 5 5 (flightOf 5 3 [5])
     && r.ownCredits.all (fun x => x.full && decide (x.lastEdge < 90))) = true := by decide +kernel

/-! ## Witnesses: streams, the host port, messages on the way -/

/-- A Stockpot version of one extent. -/
def verA : Version :=
  { tier := 0, press := false, place := 0, wheres := [0], charge := 1, mapAddr := 0, hostAddr := 0, content := Mem.zero }

/-- A descriptor of handle 0x100001 that has issued, with `o` granules outstanding, and its XFER. -/
def descUp (o : Nat) (watch : Bool := false) : DescSt :=
  { idx := 0, d := { descOf (List.replicate 64 0) with watch := watch, handle := 0x100001 }, issued := true, outstanding := o }

/-- The XFER of that descriptor. -/
def xferUp (d : DescSt) : XferSt :=
  { id := 4, e := { q := 3, op := 1, h := { stok := 2, sval := 3 }, b := 0, pc := 0, null := false }, base := 4096, count := 1
    nextDesc := 1, descs := [d] }

/-- A granule of 64 bytes of it. -/
def granUp (k : GranKind) : Granule :=
  { kind := k, xfer := 4, desc := 0, handle := 0x100001, pieces := [{ obj := 0, skl := 8192, len := 64 }], obj := 0, span := 64
    tier := 0, slice := 0, data := [(0, List.replicate 64 7)], staged := k == .store, slices := [0] }

/-- The command with a staged output of that object. -/
def cmdOut : Cmd := { cmd34 with objs := [{ handle := 0x100001, role := 3, staged := some verA }] }

/-- Core 3 with that XFER, its granule on tag 63 with epoch `e`. -/
def streamUp (k : GranKind) (d : DescSt) (e : Nat := 0) (f : CoreSt → CoreSt := id) : State :=
  let s := onCore fun c => f { c with sm := { c.sm with
    xfers := [xferUp d]
    tags := vset c.sm.tags 63 { epoch := 0, g := some (e, granUp k) } } }
  { s with cmd := { s.cmd with cmds := [cmdOut] } }

/-- A fetch that lands, a stale one, and a store into a staged version. -/
theorem witness_GranulesEnd :
    (([1, 2].all fun o => ((streamUp .fetch (descUp o)).core 3).onlyXfer (xferUp (descUp o)) (descUp o)
      && (streamUp .fetch (descUp o)).granMeets 3 63 (xferUp (descUp o)) (descUp o) (granUp .fetch))
    && (let c := (streamUp .fetch (descUp 1) 1).core 3
        c.onlyXfer (xferUp (descUp 1)) (descUp 1) && (vget c.sm.tags 63).g == some (1, granUp .fetch) && (vget c.sm.tags 63).epoch == 0
        && !(granUp .fetch).stale && c.sm.whiskQ.isEmpty)
    && (let s := streamUp .store (descUp 1)
        (s.core 3).onlyXfer (xferUp (descUp 1)) (descUp 1) && s.granMeets 3 63 (xferUp (descUp 1)) (descUp 1) (granUp .store)
        && (s.core 3).cmd == some 7 && s.getCmd 7 == some cmdOut && (cmdOut.use 0x100001).any (fun u => u.staged == some verA)
        && (s.core 4).cmd.isNone && (vget (s.core 3).sm.tags 5).g.isNone)) = true := by decide +kernel

/-- Closes of a watched descriptor, and a tile of the Whisk. -/
theorem witness_GranulesEnd_watch :
    (([1, 2].all fun k =>
        let d := { descUp 0 true with closing := true, closes := k }
        ((onCore fun c => { c with sm := { c.sm with xfers := [xferUp d] } }).core 3).onlyXfer (xferUp d) d && d.d.watch && d.outstanding == 0)
    && (let c := (streamUp .whisk (descUp 1) 0 fun c => { c with sm := { c.sm with whiskQ := [63] } }).core 3
        c.onlyXfer (xferUp (descUp 1)) (descUp 1) && c.sm.whiskQ == [63] && (vget c.sm.tags 63).g == some (0, granUp .whisk)
        && !(vget c.sm.tags 63).col)) = true := by decide +kernel

/-- A request of 64 bytes for tag 63 of core 3. -/
def hostReq (write : Bool) : HostReq := { tag := 5, write := write, addr := 4096, len := 64, owner := .granule 3 63, sentEdge := 0 }

/-- Core 3 with a granule of a kind on tag 63 that waits for the requests of `tags`. -/
def hostUp (k : GranKind) (tags : List Nat) (d : DescSt) : State :=
  let s := (streamUp k d).modCore 3 fun c => { c with sm := { c.sm with
    tags := vset c.sm.tags 63 { epoch := 0, g := some (0, { granUp k with hostTags := tags, data := [] }) } } }
  { s with
    hostReqs := [hostReq (k == .store)]
    beat := { s.beat with edge := 65536 } }

/-- A granule with one request more, one that its last request completes, a store, and the read of a program. -/
theorem witness_HostAnswers :
    (let w := hostUp .fetch [5, 6] (descUp 2)
     let l := hostUp .fetch [5] (descUp 2)
     let t := hostUp .store [5, 6] (descUp 1)
     let p := hostUp .load [5] (descUp 1)
     w.admits via 0x3A && t.admits via 0x3B && via.tag == (hostReq false).tag && (hostReq false).len == 64
     && w.hostReqs == [hostReq false] && !(granUp .fetch).home.press && (granUp .fetch).kind == .fetch
     && (l.core 3).onlyXfer (xferUp (descUp 2)) (descUp 2) && (granUp .fetch).xfer == (xferUp (descUp 2)).id
     && (vget (l.core 3).sm.tags 63).g.all (fun g => g.2.hostTags == [5])
     && t.hostReqs == [hostReq true] && (vget (t.core 3).sm.tags 63).g.all (fun g => g.2.hostTags.length == 2 && g.2.kind == .store)
     && (vget (p.core 3).sm.tags 63).g.all (fun g => g.2.kind == .load) && (p.core 3).sm.xfers.all (fun x => x.e.race.isNone)
     && (p.core 3).busy && (p.core 3).cmd == some 7 && (p.getCmd 7).all (fun k => k.group.isNone && k.stage != .aborting)
     && decide ((hostReq false).sentEdge + 65536 ≤ p.beat.edge) && up.hostReqs.isEmpty) = true := by decide +kernel

/-- A PUT from package 7 to package `dst`, as it comes in on port 0. -/
def passing (dst : Nat) : List Byte :=
  leBytes 16 (dst * 2 ^ 106 + 0x10 * 2 ^ 120 + 33 * 2 ^ 92 + 0xF1 * 2 ^ 84 + 7 * 2 ^ 76 + 77 * 2 ^ 42 + 2 ^ 59 + 2 ^ 61)

/-- Package 0 in a torus whose a-ring has four packages, with one d-port ACTIVE. -/
def net : State :=
  { up with
    cfg := { up.cfg with valid := true, pkgId := 0, na := 3 }
    ports := vset up.ports 13 { vget up.ports 13 with st := .active, credits := Vector.replicate 6 8 } }

/-- Where the message goes next. -/
def hopOf (m : List Byte) : Hop :=
  net.nextHop (rxDst m) (mtypeClass (rxType m)) (rxType m == 0x3E) (some (0, bitOf (leAt m 0 8) 59, bitOf (leAt m 0 8) 60))

/-- To package 1 over port 13, to package 1,024 over no port, and to package 8,192, which the torus does not have. -/
theorem witness_MessagesOnTheWay :
    (([1, 1024, 8192].all fun d => decide (16 ≤ (passing d).length) && !bitOf (leAt (passing d) 0 8) 58 && rxDst (passing d) == d && !rxBad false (passing d))
    && net.cfg.pkgId == 0 && (net.port 0).st != .mismatch
    && (match hopOf (passing 1) with
      | .to p _ _ _ => p == 13
      | _ => false)
    && (match hopOf (passing 1024) with
      | .fail c _ _ => c == 0x61
      | _ => false)
    && (match hopOf (passing 8192) with
      | .invalid => true
      | _ => false)) = true := by decide +kernel

/-- A PUT that waits for its acknowledgement. -/
theorem witness_MessagesOnTheWay_put :
    (let x : SentPut := { tag := 5, pkg := 1, core := 2, src := 4096, offset := 0, win := 1, mode := true, length := 64, index := 0, pc := 32, sentEdge := 0 }
     let s := onCore fun c => { c with puts := [x] }
     (s.core 3).puts == [x] && x.tag == via.tag && s.admitsCore viaF 0x3D 3 && s.admitsCore viaF 0x3E 3 && decide (x.tries < 2) && s.beat.lock != .unlocked) = true := by decide +kernel

/-! ## Witnesses: objects -/

/-- A resident object of one extent in partition 3, owned by client 2. -/
def objB : Obj := { idx := 1, gen := 1, st := .resident, owner := 2, part := 3, size := 4096, cur := { verA with wheres := [3] } }

/-- Package 0 with that object, whose client 2 belongs to partition 3 and has room in each tier. -/
def tongsUp : State :=
  { up with
    cfg := { up.cfg with valid := true, pkgId := 0, na := 3 }
    cmd := { up.cmd with
      replaying := false
      clients := vset up.cmd.clients 2 { valid := true, part := 3 }
      parts := vset up.cmd.parts 3 { vget up.cmd.parts 3 with enable := true, cores := #v[0x18, 0, 0] } }
    tongs := { up.tongs with
      objs := [objB]
      tiersUp := true
      farPresent := true
      trained := 0xFFFFFF
      quotas := vset up.tongs.quotas 2 (Vector.replicate 3 { used := 1, limit := 100 })
      pool := [7, 8] } }

/-- An object request of client 2: operation, flags, partition, handle, argument, host address. -/
def objMsg (op flags part handle arg host : Nat) : List Byte :=
  [3, 0, 2, 3] ++ leBytes 2 9 ++ leBytes 2 0 ++ leBytes 8 77 ++ List.replicate 18 0 ++ leBytes 2 64 ++ List.replicate 28 0
    ++ [toB op, toB flags, 0, toB part] ++ leBytes 4 handle ++ leBytes 8 arg ++ leBytes 8 host ++ List.replicate 40 0

/-- Each of the ten requests is accepted and meets no refusal. -/
theorem witness_ObjectRequests :
    (([(1, 0, 0, 0, 5 * 2 ^ 20, 0), (1, 10, 0, 0, 5 * 2 ^ 20, 2 ^ 21), (2, 0, 0, 0x100001, 0, 0), (3, 1, 0, 0x100001, 0, 0),
        (4, 1, 0, 0x100001, 0, 0), (5, 0x38, 0, 0x100001, 0, 0), (6, 0, 4, 0x100001, 0, 0), (7, 0, 4, 0x100001, 0, 0),
        (8, 0, 0, 0x100001, 0, 0), (9, 0, 0, 0x100001, 0, 0), (10, 0, 0, 0, 2, 2 ^ 21)].all fun m =>
          tongsUp.takesObject via (objMsg m.1 m.2.1 m.2.2.1 m.2.2.2.1 m.2.2.2.2.1 m.2.2.2.2.2) m.1)
    && tongsUp.affords 2 0 false false 3 && tongsUp.affords 2 2 false true 3 && tongsUp.affords 2 1 false false 1
    && tongsUp.affords 2 1 true false 1 && tongsUp.tongs.byHandle 0x100001 == some objB && tongsUp.tongs.byIdx 1 == some objB
    && tongsUp.tongs.moves.isEmpty && tongsUp.tongs.waits.isEmpty && objB.grants == 0 && objB.stagedBy.isEmpty && objB.phase == .none && !objB.pin) = true := by decide +kernel

/-- The open request `op` of the object. -/
def openReq (op : Nat) : Cmd :=
  { tongsUp.newCmd 5 7 (objMsg op 1 0 0x100001 (2 ^ 22) 0) with stage := .object, attempts := 1 }

/-- The package with that request open and the object as `o`. -/
def reqUp (op : Nat) (o : Obj) (f : TongsSt → TongsSt) : State :=
  { tongsUp with
    cmd := { tongsUp.cmd with cmds := [openReq op] }
    tongs := f { tongsUp.tongs with objs := [o] } }

/-- A flip of it that a request of kind `k` began. -/
def flip1 (k : MoveKind) : Flip := { idx := 1, kind := k, acceptNo := 7, old := verA, lastUse := 0, rel := 3 }

theorem witness_ObjectEvents :
    (let c := reqUp 1 { objB with st := .creating, version := 7 } id
     let m := reqUp 3 { objB with phase := .copy } fun t => { t with
       moves := [{ idx := 1, kind := .move, acceptNo := 7, tgt := { verA with tier := 1, wheres := [9] }, waiting := false }] }
     let f := reqUp 3 { objB with phase := .flip } fun t => { t with flips := [flip1 .move] }
     let a := reqUp 3 { objB with phase := .flip } fun t => { t with flips := [flip1 .auto] }
     let g := reqUp 6 objB fun t => { t with invals := [7] }
     c.calm && c.objectOpen (openReq 1) 1 && c.createdBy (openReq 1) == some { objB with st := .creating, version := 7 }
     && m.calm && (m.tongs.moves.find? fun x => x.idx == 1).any (fun x => !x.waiting && x.recon.isNone && m.copyAccess x.tgt == 0)
     && m.hostIdle (.move 1) && m.copyAccess objB.cur == 0
     && f.calm && f.objectOpen (openReq 3) 3 && f.tongs.flips == [flip1 .move] && objB.evictQ.isNone
     && a.calm && a.tongs.flips == [flip1 .auto]
     && g.calm && g.objectOpen (openReq 6) 6 && g.tongs.invals.contains 7) = true := by decide +kernel

/-- A release that nothing reads, and an allocation whose time is over. -/
theorem witness_ObjectEvents_waits :
    (let r : Release := { id := 4, client := 2, tier := 0, press := false, wheres := [3], units := 1 }
     let s := { tongsUp with tongs := { tongsUp.tongs with releases := [r] } }
     let w := reqUp 3 { objB with phase := .copy } fun t => { t with waits := [{ acceptNo := 7, until_ := 90, code := 0x51 }], quotas := vset t.quotas 2 (Vector.replicate 3 { used := 100, limit := 100 }) }
     s.calm && s.tongs.releases == [r] && !s.releaseBusy r
     && decide (90 ≤ w.beat.edge) && w.objectOpen (openReq 3) 3 && w.tongs.objs.all (fun x => x.evictQ.isNone)
     && w.short { client := 2, tier := 1, press := false, named := false, n := 1 } != (0, 0) && (w.tierRefusal 1 false 1).isNone
     && w.tongs.byHandle (openReq 3).objReq.handle == some { objB with phase := .copy }
     && w.cmd.cmds.all (fun x => x.stage != .queued)) = true := by decide +kernel

/-! ## Witnesses: integrity -/

/-- `up` at edge 9,000 with every die-to-die link up. -/
def linked : State :=
  { up with links := Vector.replicate 8 { up := Vector.replicate 2 true }, beat := { up.beat with edge := 9000 } }

/-- Region 15 with one entry of its rebuild buffer. -/
def rebuilding (done : Bool) : State :=
  linked.modRegion 15 fun g => { g with rebuild := [{ bank := 127, row := 12287, seg := 32, done := done }] }

theorem witness_RowsAndLinks :
    (let e := { linked with links := Vector.replicate 8 { up := Vector.replicate 2 true, recent := Vector.replicate 2 [1, 2, 3, 4, 5, 6, 7] } }
     let d := { e with links := vmap e.links fun x => { x with dropped := vset x.dropped 0 true } }
     let b := linked.modRegion 15 fun g => { g with sparing := [{ bank := 5, spare := 129 }] }
     let r := linked.modRegion 15 fun g => { g with slice := 1 }
     (linked.link 7).carries 1 && (vget (linked.link 7).recent 1).isEmpty && (vget (e.link 7).recent 1).length == 7
     && (e.link 7).carries 0 && e.integ.tests.isEmpty && (vget (linked.core 3).sm.tags 5).g.isNone && linked.copyWaits.isEmpty
     && linked.tongs.waits.isEmpty && (linked.region 15).patrolWait.isEmpty
     && (d.link 3).carries 1 && vget (d.link 3).dropped 0 && (d.die 3).st != .unreachable && d.noCopies && ((d.core 5).heldAt 3).isEmpty
     && ((rebuilding false).rebuildOf (15, 127, 12287, 32)).any (fun x => !x.done) && ((rebuilding false).region 15).spareLeft 127 == 64
     && ((rebuilding true).region 15).rebuild.all (fun x => x.bank == 127 && x.row == 12287 && x.done) && !(rebuilding true).dieHeld 3
     && ((rebuilding true).region 15).rowOf 127 12287 == some 12287 && !(((rebuilding true).region 15).spares 127).isEmpty
     && (b.region 15).sparing == [{ bank := 5, spare := 129 }] && (b.region 15).bankMap.isEmpty
     && !(linked.region 15).inReset && (linked.die 3).st == .active
     && (linked.rebuildOf (15, 0, 0, 32)).isNone && (linked.region 15).testRows.isEmpty && (linked.region 15).retiredRows.isEmpty
     && (r.region 15).slice == 1 && (r.region 15).used.isEmpty) = true := by decide +kernel

/-- Every rail at its target: a slice of periodic BIST may run on core 191, and with no rail reading it is skipped. -/
def powered : State :=
  { linked with power := { linked.power with rails := vmapIdx linked.power.rails fun i r => { r with volt := linked.railTarget i } } }

theorem witness_TestOutcomes :
    (let x : Test := { loc := .row 15 127 3, running := false, deferred := true }
     let d := linked.modInteg fun i => { i with tests := [x] }
     d.integ.tests == [x] && d.testFree x.loc && d.integ.history.isEmpty && d.tongs.waits.isEmpty
     && powered.bistIdle 191 && powered.bistPower 191 && powered.testRoom 191 && powered.bistTurn 191 && powered.beat.lock != .unlocked
     && !powered.coreTestDue && !linked.coreTestDue
     && linked.bistIdle 191 && !linked.bistPower 191 && linked.integ.skipped.isEmpty) = true := by decide +kernel

/-! ## Witnesses: commands -/

/-- A TIME_LOCKED package at beat 10,000 that holds the object, with its journal and clients. -/
def cmdUp : State := { tongsUp with beat := { tongsUp.beat with lock := .timeLocked, count := 10000, edge := 70000 } }

/-- The schedule of a group of two packages with three rendezvous. -/
def sched : List Byte :=
  leBytes 8 (2 ^ 63 + 5) ++ leBytes 8 20000 ++ leBytes 2 0 ++ leBytes 2 1024 ++ leBytes 2 2 ++ leBytes 2 0 ++ leBytes 4 4096
    ++ List.replicate 36 0 ++ leBytes 8 (1000 + 3 * 2 ^ 32) ++ leBytes 8 3000

/-- A command message of client 2 in job 9 with request 77. -/
def cmdMsg (kind arg arg2 : Nat) (sc pl : List Byte) : List Byte :=
  [toB kind, 8, 2, 3] ++ leBytes 2 9 ++ leBytes 2 0 ++ leBytes 8 77 ++ leBytes 4 0x100001 ++ leBytes 4 64 ++ leBytes 8 0
    ++ leBytes 2 sc.length ++ leBytes 2 pl.length ++ leBytes 4 0 ++ leBytes 8 arg ++ leBytes 8 arg2 ++ List.replicate 8 0 ++ sc ++ pl

/-- The RUN command of that client, accepted with number 7. -/
def runCmd7 (st : CmdStage) : Cmd := { cmdUp.newCmd 4 7 (cmdMsg 1 0 0 [] [9, 8, 7]) with stage := st }

/-- The package that knows it. -/
def withCmd (c : Cmd) : State := { cmdUp with cmd := { cmdUp.cmd with cmds := [c], nextAccept := 8 } }

/-- RUN and GROUP are accepted, PREEMPT, RESUME and JOB_END are heard. -/
theorem witness_CommandMessages :
    (cmdUp.takes via (cmdMsg 1 0 0 [] [1, 2, 3]) && cmdUp.takes via (cmdMsg 2 0 0 sched []) && (cmdUp.getCmd 1).isNone
    && cmdUp.cmd.nextAccept == 1 && decide (cmdUp.now + 256 ≤ (groupOf (msgSched (cmdMsg 2 0 0 sched []))).rk 0)
    && (withCmd (runCmd7 .queued)).hears via (cmdMsg 4 7 555 [] []) && (withCmd (runCmd7 .queued)).getCmd 7 == some (runCmd7 .queued)
    && (withCmd (runCmd7 .running)).hears via (cmdMsg 4 7 555 [] []) && (runCmd7 .running).kill.isNone && (runCmd7 .running).group.isNone
    && (withCmd (runCmd7 .held)).hears via (cmdMsg 5 7 0 [] []) && decide ((runCmd7 .held).attempts ≤ (runCmd7 .held).rerunMax)
    && cmdUp.hears via (cmdMsg 6 0 0 [] []) && (cmdUp.jobCmds 3 9).isEmpty) = true := by decide +kernel

/-- A record of the partner, a mirror that is out, and a journal that is replayed. -/
theorem witness_CommandMessages_mirrors :
    (let r := (runCmd7 .queued).record 0 (.accept (runCmd7 .queued).message)
     let x : MirrorOut := { tag := 5, rec_ := r, why := .accept 7, dst := 9, sentEdge := 0 }
     let p := { cmdUp with lid := { cmdUp.lid with st := .paired, partner := 9 } }
     let m := { (withCmd (runCmd7 .mirroring)) with cmd := { (withCmd (runCmd7 .mirroring)).cmd with mirrors := [x] } }
     let j := { cmdUp with cmd := { cmdUp.cmd with replaying := true, journal := [r] } }
     p.admits viaF 0x12 && !p.unpaired && p.lid.partner == via.src && p.cmd.partnerJrnl.isEmpty && cmdUp.unpaired
     && m.admits viaF 0x32 && m.cmd.mirrors == [x] && x.tag == via.tag && m.getCmd 7 == some (runCmd7 .mirroring) && (runCmd7 .mirroring).kind == 1
     && decide (x.sentEdge + 65536 ≤ m.beat.edge) && !cmdUp.cmd.replaying
     && j.cmd.replaying && j.power.ready && j.unpaired && j.power.stateKept && j.cmd.cmds.isEmpty
     && (msgHdr (cmdMsg 1 0 0 [] [9, 8, 7])).kind == 1) = true := by decide +kernel

/-- The package with job 9 in partition 3. -/
def withJob (s : State) : State := { s with cmd := { s.cmd with parts := vmod s.cmd.parts 3 fun p => { p with ctxs := [{ job := 9 }] } } }

/-- A version of it that a command has staged. -/
def verB : Version := { verA with wheres := [5] }

/-- Core 3 loading the RUN command, in the clearing or after the read of the program has begun. -/
def loadingAt (clearing started : Bool) : State :=
  (withCmd (runCmd7 .running)).modCore 3 fun c =>
    { c with st := .loading, cmd := some 7, loading := some { acceptNo := 7, clearing := clearing, started := started } }

/-- A job's first command and one of the job that core 3 ran last; the clearing ends with the program there and gone; the program
is read. -/
theorem witness_CommandCourse :
    (let q := withJob (withCmd (runCmd7 .queued))
     let k := (q.modPart 3 fun p => { p with cores := #v[8, 0, 0] }).modCore 3 fun c => { c with lastJob := some (3, 9) }
     let x := { loadingAt true false with tongs := { (loadingAt true false).tongs with objs := [] } }
     q.partFree 3 && q.partCores 3 == [3, 4] && !(q.core 3).inReset && !(q.core 4).inReset && q.nextCmd 3 == some (runCmd7 .queued)
     && (q.core 3).lastJob.isNone && (q.core 4).lastJob.isNone && (runCmd7 .queued).objs.isEmpty && (runCmd7 .queued).group.isNone
     && k.partFree 3 && k.partCores 3 == [3] && k.nextCmd 3 == some (runCmd7 .queued) && (k.core 3).lastJob == some (3, (runCmd7 .queued).job)
     && (match (loadingAt true false).progTarget (runCmd7 .running) with
       | .ok o => o == objB
       | .error _ => false)
     && (match x.progTarget (runCmd7 .running) with
       | .ok _ => false
       | .error c => c == 0x1E)
     && ([true, false].all fun b => ((loadingAt b (!b)).core 3).loading == some { acceptNo := 7, clearing := b, started := !b }
       && ((loadingAt b (!b)).core 3).st == .loading && ((loadingAt b (!b)).core 3).cmd == some 7)
     && !(loadingAt false true).coreTested 3
     && ({ (loadingAt false true).core 3 with races := Vector.replicate 4 {} } : CoreSt).enginesIdle) = true := by decide +kernel

/-- An output that is to be staged as a copy, one that is copied, and one that is committed. -/
theorem witness_CommandCourse_outputs :
    (let u : ObjUse := { handle := 0x100001, role := 2, staged := some verB, copied := false }
     let q := withJob (withCmd { runCmd7 .queued with objs := [{ u with staged := none }] })
     let s := withCmd { runCmd7 .staging with objs := [u], cores := [3] }
     let c : Cmd := { runCmd7 .commitWait with objs := [{ u with role := 3, copied := true }] }
     let w := withJob (withCmd c)
     q.partFree 3 && (q.nextCmd 3).any (fun c => c.objs.length == 1) && q.affords 2 0 false false 1 && q.tongs.waits.isEmpty && objB.st == .resident
     && s.getCmd 7 == some { runCmd7 .staging with objs := [u], cores := [3] } && s.tongs.byHandle 0x100001 == some objB
     && s.hostIdle (.stage 7 0x100001) && s.copyAccess objB.cur == 0 && s.copyAccess verB == 0 && s.tongs.waits.isEmpty
     && (s.core 3).lastJob.isNone && !u.lost && w.tongs.merge.isEmpty
     && c.kill.isNone && !w.freezeHolds 3 && !w.atCeiling c && !w.dieHold c && w.unpaired && w.cmd.mirrors.isEmpty && w.tongs.moves.isEmpty
     && !c.restored && c.preempts.isEmpty && (w.part 3).ctxs.all (fun x => x.ending.isEmpty) && w.tongs.byHandle 0x100001 == some objB
     && w.tongs.byIdx 1 == some objB && objB.phase == .none && objB.evictQ.isNone) = true := by decide +kernel

/-- The group of the schedule with its base at a beat. -/
def groupAt (base : Nat) (f : Group → Group) : Group := f { groupOf sched with base := base, k := 0 }

/-- The GROUP command, accepted with number 7, on core 3. -/
def groupCmd7 (st : CmdStage) (g : Group) : Cmd :=
  { cmdUp.newCmd 4 7 (cmdMsg 2 0 0 sched []) with stage := st, group := some g, cores := [3], epoch := 1 }

/-- The package that runs it; `away` puts the package at a participant that is not the coordinator. -/
def groupUp (st : CmdStage) (g : Group) (away : Bool) : State :=
  let s := (withCmd (groupCmd7 st g)).modCore 3 fun x => { x with st := .running, cmd := some 7, group := true, nrdv := 2 }
  if away then { s with cfg := { s.cfg with pkgId := 1024 } } else s

theorem witness_GroupCourse :
    (let g := groupAt 9256 id
     let r := groupAt 9000 fun g => { g with readySent := [0], readies := [(1024, 0), (3072, 0)] }
     let rs := (groupUp .running r false).modCore 3 fun x => { x with flights := vset x.flights 4 [flightOf 5 5] }
     let n := groupAt 9000 id
     let p := groupAt 10000 id
     (groupUp .running g false).getCmd 7 == some (groupCmd7 .running g) && (groupCmd7 .running g).cores.length == 1 && (groupCmd7 .running g).active
     && g.voted.isNone && g.decision.isNone && decide (0 < g.nrdv) && g.readySent.isEmpty && (groupUp .running g false).now + 256 == g.rk 0
     && decide (alGet g.slips 0 0 < (groupUp .running g false).beat.maxSlips)
     && decide (1 < r.nrdv) && rs.now == r.rk 0 && (rs.peers r 0).all (fun p => r.readies.contains (p, 0)) && (rs.core 3).executes 5 (flightOf 5 5)
     && (groupUp .running n false).now == n.rk 0 && n.readySent.isEmpty
     && (groupUp .running p false).cmdOfGroup p.gid == some (groupCmd7 .running p) && decide ((groupUp .running p false).now + 32 < p.rk 0)
     && ([0x01, 0x02, 0x03, 0x04].all fun m => (groupUp .running p false).admits viaF m) && p.readies.isEmpty && p.commits.isEmpty) = true := by decide +kernel

/-- Votes and decisions at a participant; the coordinator after C + 256; and a participant in doubt. -/
theorem witness_GroupCourse_decisions :
    (let g := groupAt 9000 id
     let k := groupAt 5000 fun g => { g with k := 2 }
     let d : Decision := { gid := g.gid, epoch := 1, kind := 1, cause := 0, first := 9, beat := 20000 }
     let m := groupAt 5000 fun g => { g with k := 2, deciding := some ({ d with beat := 10192 }, 5) }
     let v := groupAt 5000 fun g => { g with k := 2, voted := some 1 }
     let q := groupAt 5000 fun g => { g with k := 2, voted := some 1, coordPartner := 9 }
     let e := groupAt 5000 fun g => { g with decision := some { d with beat := 10000 } }
     let x : Cmd := { groupCmd7 .queued (groupAt 10000 id) with attempts := 1, cores := [] }
     ((groupUp .running g true).voteParent g).isSome && !g.forwarded && (groupCmd7 .running g).stage != .prepared && !(groupUp .running g true).coresIdle 7
     && (groupCmd7 .running g).kill.isNone && (groupUp .prepared g true).unpaired && decide ((groupUp .prepared g true).now < d.beat)
     && decide (k.nrdv ≤ k.k) && ((groupUp .prepared k false).voteParent k).isNone && k.deciding.isNone
     && decide (k.commitBeat + 256 ≤ (groupUp .prepared k false).now) && decide (10192 ≤ (groupUp .prepared m false).now + 192)
     && v.voted == some 1 && decide (v.commitBeat + 1280 ≤ (groupUp .prepared v false).now)
     && decide (q.lastQuery + 4096 ≤ (groupUp .inDoubt q false).beat.edge)
     && decide (10000 ≤ (groupUp .committing e false).now) && (groupCmd7 .committing e).objs.isEmpty
     && decide ((withCmd x).now + 256 ≤ (groupAt 10000 id).rk 0) && (withJob (withCmd x)).partFree 3
     && ((withJob (withCmd x)).jobHead 3 9).map (·.acceptNo) == some 7) = true := by decide +kernel

/-! ## Witnesses: the Lid -/

/-- Package 1 of a torus whose b-ring has eight packages, with every port ACTIVE, 2^25 + 90 edges old, configured to pair with
package 0x100 and with its reserve taken. -/
def pairUp (st : PairState) : State :=
  { up with
    power := { up.power with feedId := 3 }
    beat := { up.beat with edge := 2 ^ 25 + 90 }
    cfg := { up.cfg with valid := true, pkgId := 1, nb := 7 }
    ports := vmap up.ports fun p => { p with st := .active }
    lid := { up.lid with st := st, partnerValid := true, partner := 0x100, slotGib := 4 }
    tongs := { up.tongs with reserve := 2 } }

theorem witness_Pairing :
    ((pairUp .unpaired).admits viaF 0x15 && (pairUp .unpaired).lid.partnerValid && (pairUp .unpaired).lid.heldSlots.isEmpty
    && ([0, 1, 2].all fun k => coord 7 k == coord 1 k) && coord 0x100 1 != coord 1 1 && (pairUp .pairing).reserveOk
    && (pairUp .pairing).lid.slotGib == 4 && (pairUp .pairing).power.feedId == 3 && (pairUp .refused).lid.st == .refused
    && (pairUp .pairing).power.ready && (pairUp .pairing).cfg.valid && (pairUp .pairing).partnerRoute
    && decide ((pairUp .pairing).lid.pairEdge + 2 ^ 25 ≤ (pairUp .pairing).beat.edge)) = true := by decide +kernel

/-- A paired package whose native partition 3 owns a SECURE object of the Stockpot and a secure of which is due, with a slot of
`units`. -/
def dueUp (units : Nat) : State :=
  ((pairUp .paired).modLp 3 fun l => { l with native := !false, slotUnits := units, active := 1, due := true, gen := 8 }).modTongs
    fun t => { t with objs := [{ objB with secure := true }] }

/-- A secure of it at a step. -/
def secureAt (st : SecStep) (page : Nat) : Secure :=
  { part := 3, slot := 1, gen := 9, image := (dueUp 4).imageOf 3, step := st, page := page, pages := 3, out := [5] }

/-- The package in that secure. -/
def securingAt (st : SecStep) (page : Nat) : State := (dueUp 4).modLid fun l => { l with secure := some (secureAt st page) }

theorem witness_SecureSteps :
    (let c := { dueUp 4 with cmd := { (dueUp 4).cmd with cmds := [{ cmd0 with part := 3, stage := .committing }] } }
     ([1, 4].all fun k => (dueUp k).secured 3 && ((dueUp k).lp 3).due && !((dueUp k).lp 3).align && !(dueUp k).anyBrown && !(dueUp k).securing 3
       && !(dueUp k).committing 3)
     && decide (1 * 2 ^ 21 < ((dueUp 1).imageOf 3).bytes) && decide (((dueUp 4).imageOf 3).bytes ≤ 4 * 2 ^ 21) && (dueUp 4).lid.secure.isNone
     && (dueUp 4).lid.frozen.isEmpty && c.committing 3
     && ([(SecStep.clearSeal, 0), (.pages, 1), (.pages, 2), (.sealing, 0), (.pointer0, 0), (.pointer1, 0)].all fun x =>
       (securingAt x.1 x.2).admits viaF 0x33 && (securingAt x.1 x.2).lid.pairOut.isNone && (securingAt x.1 x.2).lid.secure.isSome
       && (secureAt x.1 x.2).out == [via.tag])
     && (securingAt .pages 1).lid.rate != 0 && (securingAt .pointer1 0).lid.frozen.isEmpty && (securingAt .pointer1 0).lid.nFlash == 0
     && (securingAt .pointer1 0).lid.nStore == 0 && (securingAt .pointer1 0).cmd.journal.isEmpty && (securingAt .pointer1 0).cmd.cmds.isEmpty) = true := by
  decide +kernel

/-- The source of page 1 lies in a slice whose die is in reset. -/
theorem witness_SecureSteps_source :
    (let x := secureAt .pages 0
     let s := (securingAt .pages 0).modDie 0 fun d => { d with st := .reset }
     s.admits viaF 0x33 && s.lid.pairOut != some viaF.tag && s.lid.secure == some x && x.out == [viaF.tag] && s.lid.rate != 0
     && decide (x.page + 1 < x.pages) && x.recon.isNone && s.lid.frozen.isEmpty
     && ((x.image.source (x.image.pageIndex 1)).all fun y => y.1.cur.tier == 0 && s.sliceAccess (y.1.cur.slice y.2) == 2)
     && (x.image.source (x.image.pageIndex 1)).isSome) = true := by decide +kernel

/-- Package 9 is the partner, and slot 1 of its partition 3 is held with a page. -/
def heldUp : State :=
  { pairUp .paired with lid := { (pairUp .paired).lid with
      partner := 9, heldSlots := [{ part := 3, slot := 1, gen := 8, pages := [(5, [1])] }] } }

theorem witness_PartnerSide :
    (let h : HeldSlot := { part := 3, slot := 1, gen := 8, pages := [(5, [1])] }
     heldUp.admits viaF 0x13 && heldUp.admits viaF 0x14 && !heldUp.unpaired && heldUp.lid.partner == viaF.src && heldUp.lid.heldSlots == [h]
     && decide (5 < heldUp.lid.slotGib * 2 ^ 18) && !h.agrees (List.replicate 256 7)
     && (pairUp .paired).lid.partner != via.src) = true := by decide +kernel

theorem witness_SlowCopiesAndRisk :
    (let x := fun (st pg : Nat) => ({ part := 3, slot := 1, gen := 9, image := (dueUp 4).imageOf 3, step := st, page := pg } : SlowCopy)
     let w := (pairUp .paired).modLid fun l => { l with storeWait := some (15, 2 ^ 32 + 5) }
     let r := (pairUp .paired).modLid fun l => { l with decay := 1, lastDecay := 3 }
     decide (1 < (x 0 0).image.sendPages) && (x 3 0).step == 3 && w.admits via 0x22 && w.power.ready && (2 ^ 32 + 5) % 2 ^ 32 == 5
     && r.lid.decay != 0 && decide (r.lid.lastDecay + r.lid.decay * 65536 ≤ r.beat.edge)) = true := by decide +kernel

theorem witness_Restorations :
    (let i := { (dueUp 4).imageOf 3 with objs := [{ obj := { objB with secure := true }, content := some Mem.zero }] }
     let s := fun (src : Nat) (up : Bool) => ({ pairUp (if up then .paired else .unpaired) with lid := { (pairUp (if up then .paired else .unpaired)).lid with
       restoring := [{ part := 3, source := src, point := 0 }] } } : State).modLp 3 fun l => { l with native := !false, images := [(src, 1, i)] }
     (s 0 true).admits via 0x22 && (s 0 true).lid.rate != 0 && !((s 0 true).lp 15).native && ((s 0 true).lp 3).native && ((s 0 true).part 3).running.isNone
     && (s 0 true).lid.restoring.all (fun r => r.part != 15) && !(s 0 true).unpaired && (s 0 false).unpaired && !(s 1 true).lid.flashOk
     && ((s 2 true).port 16).st == .active && ((s 0 true).lp 3).images.length == 1 && i.journal.isEmpty && (s 0 true).cmd.cmds.isEmpty
     && (s 0 true).cmd.journal.isEmpty && (s 0 true).tongs.objs.isEmpty) = true := by decide +kernel

/-! ## Witnesses: instruction words and the log -/

/-- The largest queue and opcode, and a core that can fetch. -/
theorem witness_InstructionWordsRoundTrip :
    (bitsOf (instWord 7 255 hdr (toW abc)) 127 125 == 7 && (at0 0 1 abc).fetchesNow 0 0 1 hdr (toW abc)) = true := by decide +kernel

/-- A log with two records in order, in a state whose step goes on. -/
theorem witness_LogRingStaysInOrder :
    (let s := (up.logEv { code := 0x3F }).logEv { code := 0x80 }
     s.log.ring.map (·.seq) == [1, 0] && s.log.next == 2 && (match step s with
       | .next t => t.beat.edge == 1001
       | _ => false)) = true := by decide +kernel

/-- SHA3-256 of no bytes, as FIPS 202 has it. -/
def sha3Empty : List Byte := (leBytes 32 0x4a43f8804b0ad882fa493be44dff80f562d661a05647c15166d71ebff8c6ffa7)

set_option maxRecDepth 20000 in
theorem test_sha3_empty : sha3 [] = sha3Empty := by decide +kernel

set_option maxRecDepth 20000 in
/-- A held slot whose one page is empty, and a seal that agrees with it. -/
theorem witness_PartnerSide_seal :
    (let h : HeldSlot := { part := 3, slot := 1, gen := 8, pages := [(0, [])] }
     h.agrees (leBytes 8 0x100010309 ++ leBytes 8 6 ++ List.replicate 24 0 ++ leBytes 8 (2 ^ 22) ++ List.replicate 16 0 ++ sha3Empty
       ++ List.replicate 160 0)) = true := by decide +kernel

/-! ## Well-formedness: one ill-formed command for each check -/

/-- A message that comes as the manual lets it come. -/
def okV : Via := { src := 1 }

theorem test_wf_senders : ([Instr.fwStage { okV with port := 18 }, .fwStage { okV with src := 2 ^ 14 },
    .fwStage { okV with unit := 256 }, .fwStage { okV with tag := 65536 }].all fun i => !i.wf) = true := by decide +kernel

theorem test_wf_bodies : ([Instr.create okV (List.replicate 4097 0), .slotWrite okV 0 0 0 0 (List.replicate 4097 0),
    .seal okV 0 0 0 (List.replicate 4097 0), .hostReadReply okV (some (List.replicate 4097 0)),
    .messageForward 0 (List.replicate 5001 0), .dataFlit 0 (List.replicate 255 0)].all fun i => !i.wf) = true := by decide +kernel

theorem test_wf_cores : ([Instr.nop 192 hdr 0, .instructionComplete 0 6 0 0, .instructionComplete 192 5 0 0, .raceDeadline 0 4,
    .raceDeadline 192 3, .grantResend 192 0, .grantResend 0 65536, .ldlRegWrite okV 192 0 true 0 0, .ldlRegWrite okV 0 3 true 0 0,
    .coreReset okV 192, .putAck okV 192 default].all fun i => !i.wf) = true := by decide +kernel

theorem test_wf_links : ([Instr.d2dRetransmit 8 0, .d2dRetransmit 0 2, .farEndDetect 17, .idleFlit 0 { ack := 4096 },
    .idleFlit 0 { cvc := 6 }, .idleFlit 0 { ccount := 256 }, .idleFlit 0 { corr := [256] }, .nak 17 {} 0, .nak 0 { ack := 4096 } 0, .keepalive 0 { cvc := 6 } default,
    .marker 0 { corr := [256] } 0 0 0 false 0, .width 0 {} 256, .detectDone 0 256, .retrain okV 17 0, .retrain okV 0 256, .messageForward 17 [], .dataFlit 17 (List.replicate 256 0)].all fun i => !i.wf) = true := by decide +kernel

theorem test_wf_memories : ([Instr.csrRead okV (2 ^ 28) 8, .rowSpareCopyDone 16 0 0, .rowSpareCopyDone 0 130 0,
    .rowSpareCopyDone 0 0 12352, .rowReconstructed 0 0 0 33 .second, .patrolRead 16 0 none, .patrolRead 0 0 (some 33), .bankSpareCopyDone 16 [],
    .sliceRetired 16, .moveCopyDone (2 ^ 20) [] (.ok 0),
    .quotaLimitWrite okV 64 0 true 0, .quotaLimitWrite okV 0 3 true 0].all fun i => !i.wf) = true := by decide +kernel

theorem test_wf_messages : ([Instr.hostTimeout 65536, .parityNak okV 256 0, .parityNak okV 0 256, .errorMsg okV 256 0 0,
    .errorMsg okV 0 0 256, .responseTimeout 256 0, .responseTimeout 0 65536].all fun i => !i.wf) = true := by decide +kernel

theorem test_wf_partitions : ([Instr.freeze 16, .slotWrite okV 16 0 0 0 [], .slotWrite okV 0 2 0 0 [], .seal okV 0 16 0 [],
    .seal okV 0 0 2 [], .lidStoreAck okV 16 0, .restore okV 4 0, .restore okV 0 16, .pair okV (2 ^ 14) 0 0 0, .pair okV 0 16 0 0,
    .pair okV 0 0 (2 ^ 14) 0].all fun i => !i.wf) = true := by decide +kernel

theorem test_wf_power : ([Instr.railWarning 11, .degradedHold 4, .hostModeWrite okV 4, .thermalTrip 5 0, .regionReset okV 16,
    .dieReset okV 4, .resetRelease 4 0 0 0 true, .resetRelease 0 4 0 0 true, .resetRelease 0 0 16 0 true, .resetRelease 0 0 0 8 true,
    .cfgStage okV (2 ^ 17)].all fun i => !i.wf) = true := by decide +kernel

theorem test_wf_observation : ([Instr.attestRequest okV 256 true 0, .attestRequest okV 0 true 32, .sidebandWrite 128 0 [],
    .sidebandWrite 0 256 [], .sidebandWrite 0 0 (List.replicate 256 0), .sidebandRead 128 1, .setdasa 128 0, .setdasa 0 128,
    .hltClr okV 16 0, .hltClr okV 0 256, .counterClear 16 0, .counterClear 0 256].all fun i => !i.wf) = true := by decide +kernel

theorem test_wf_accepts : ([Instr.fwStage okV, .nop 191 hdr 0, .d2dRetransmit 7 1, .dataFlit 16 (List.replicate 256 0),
    .rowReconstructed 15 129 12351 32 .second, .restore okV 3 15, .railWarning 10, .counterClear 15 255].all Instr.wf) = true := by
  decide +kernel

end Sys2Proof.Tests
end

section
/-!
SUPPORT. Control-space accesses: taking a received message changes no register, a message that its port admits is acted on, and
what the checks of an access can answer (R2 to R6).
-/

namespace Sys2Proof.Machine

open Sys2Proof

/-! ## Taking a received message -/

/-- A message acted on changes ports only. -/
theorem State.takeRx_shape (s : State) (v : Via) (m : Nat) : ∃ ps, s.takeRx v m = { s with ports := ps } := by
  unfold State.takeRx
  split
  · exact ⟨_, rfl⟩
  · exact ⟨s.ports, rfl⟩

/-- A message acted on changes no more of a port than the messages it has received. -/
theorem State.takeRx_port_shape (s : State) (v : Via) (m p : Nat) :
    ∃ ms, (s.takeRx v m).port p = { s.port p with rxMsgs := ms } := by
  unfold State.takeRx
  split
  next hport =>
    by_cases hp : v.port = p
    · subst hp
      exact ⟨_, vget_vmod_self _ _ _ hport⟩
    · exact ⟨(s.port p).rxMsgs, vget_vmod_ne _ _ _ _ hp⟩
  next => exact ⟨(s.port p).rxMsgs, rfl⟩

@[simp] theorem State.takeRx_port_st (s : State) (v : Via) (m p : Nat) : ((s.takeRx v m).port p).st = (s.port p).st := by
  obtain ⟨_, h⟩ := s.takeRx_port_shape v m p
  rw [h]

/-- No register of a port shows the messages that it has received. -/
theorem State.takeRx_port_readReg (s : State) (v : Via) (m p : Nat) (r : PortReg) :
    ((s.takeRx v m).port p).readReg r = (s.port p).readReg r := by
  obtain ⟨_, h⟩ := s.takeRx_port_shape v m p
  rw [h]
  cases r <;> rfl

/-- A message acted on changes the value of no register. -/
@[simp] theorem State.takeRx_csrValue (s : State) (v : Via) (m : Nat) (r : Csr) : (s.takeRx v m).csrValue r = s.csrValue r := by
  have hread : (s.takeRx v m).readCsr r = s.readCsr r := by
    obtain ⟨ps, h⟩ := s.takeRx_shape v m
    cases r with
    | port p x => exact s.takeRx_port_readReg v m p x
    | _ => rw [h]; rfl
  exact congrArg toW hread

/-- A message acted on leaves every block in reset, or out of it, as it was. -/
@[simp] theorem State.takeRx_csrHeld (s : State) (v : Via) (m off : Nat) (r : Csr) :
    (s.takeRx v m).csrHeld off r = s.csrHeld off r := by
  obtain ⟨ps, h⟩ := s.takeRx_shape v m
  rw [h]
  rfl

@[simp] theorem State.takeRx_csrCheck (s : State) (v : Via) (m off width : Nat) :
    (s.takeRx v m).csrCheck off width = s.csrCheck off width := by
  simp only [State.csrCheck, State.takeRx_csrHeld]

/-- A message that its port admits is acted on (R329, R330, R344). -/
theorem State.receive_of_admits {s : State} {v : Via} {m : Nat} (h : s.admits v m = true) : s.receive v m = (true, s.takeRx v m) := by
  unfold State.admits at h
  simp only [Bool.and_eq_true, Bool.or_eq_true, Bool.not_eq_true', Bool.and_eq_false_iff, decide_eq_true_eq, decide_eq_false_iff_not,
    beq_eq_false_iff_ne] at h
  obtain ⟨⟨hgood, hmatch⟩, htype⟩ := h
  have hnotMismatch : ¬(v.port < 16 ∧ ((s.takeRx v m).port v.port).st = .mismatch ∧ m ≠ 0x3E) := by
    rw [State.takeRx_port_st]
    rintro ⟨hport, hst, -⟩
    exact hmatch.elim (· hport) (· hst)
  have hcarried : ¬(v.port < 17 ∧ (!mtypeOk (v.port == 16) m) = true) := by
    rintro ⟨hport, hty⟩
    rcases htype with hout | hok
    · omega
    · simp [hok] at hty
  unfold State.receive
  simp only [if_neg hnotMismatch, if_neg hcarried, hgood, if_true]

/-! ## The checks of an access (R6) -/

/-- An access passes the checks when it is aligned and 8 bytes wide, and its register's block is out of reset. -/
theorem State.csrCheck_ok {s : State} {off : Nat} {r : Csr} (halign : off % 8 = 0) (hreg : csrAt off = some r)
    (hheld : s.csrHeld off r = false) : s.csrCheck off 8 = .ok r := by
  simp [State.csrCheck, halign, hreg, hheld]

/-- What the checks refuse an access with: 0x12 for its width or alignment (R2), then 0x11 where no register is (R4), then 0x13 for a
block held in reset (R5). -/
theorem State.csrCheck_error_iff (s : State) (off width code : Nat) :
    s.csrCheck off width = .error code ↔
      code = 0x12 ∧ (width ≠ 8 ∨ off % 8 ≠ 0) ∨ code = 0x11 ∧ width = 8 ∧ off % 8 = 0 ∧ csrAt off = none
        ∨ code = 0x13 ∧ width = 8 ∧ off % 8 = 0 ∧ ∃ r, csrAt off = some r ∧ s.csrHeld off r = true := by
  unfold State.csrCheck
  by_cases hshape : width ≠ 8 ∨ off % 8 ≠ 0
  · rw [if_pos hshape, Except.error.injEq]
    omega
  · obtain ⟨hwidth, halign⟩ : width = 8 ∧ off % 8 = 0 := by omega
    rw [if_neg hshape]
    cases hreg : csrAt off with
    | none => simp [hwidth, halign, @eq_comm _ code]
    | some r => cases hheld : s.csrHeld off r <;> simp [hwidth, halign, hheld, @eq_comm _ code]

/-! ## An access that its port admits -/

/-- A refused access writes its record and is answered with its code; the register's own action does not run. -/
theorem State.csrAccess_of_error {s : State} {v : Via} {m off width code : Nat} {act : State → Csr → Nat × Word × State}
    (hadm : s.admits v m = true) (hchk : s.csrCheck off width = .error code) :
    s.csrAccess v m off width act
      = ((s.takeRx v m).logEv { code := code, unit := 0xFE, addr := .ctrl off }).csrReply v.tag code 0 := by
  simp [State.csrAccess, State.receive_of_admits hadm, hchk]

/-- A read that passes the checks is answered with its register's value. -/
theorem State.csrRead_of_ok {s : State} {v : Via} {off width : Nat} {r : Csr} (hadm : s.admits v 0x21 = true)
    (hchk : s.csrCheck off width = .ok r) : s.csrRead v off width = (s.takeRx v 0x21).csrReply v.tag 0 (s.csrValue r) := by
  simp [State.csrRead, State.csrAccess, State.receive_of_admits hadm, hchk]

theorem exec_csrRead (v : Via) (off width : Nat) (s : State) : exec (.csrRead v off width) s = .next (s.csrRead v off width) := rfl

theorem exec_csrWrite (v : Via) (off width : Nat) (w : Word) (s : State) :
    exec (.csrWrite v off width w) s = .next (s.csrWrite v off width w) := rfl

/-- Settles O21: the three refusals are the errors of `csrCheck`, and a read that passes them answers the value that the register had
before the message was taken. -/
theorem registerAccess : Obligations.RegisterAccess := by
  unfold Obligations.RegisterAccess
  constructor
  · intro s v off width value code hrefused
    have hchk : s.csrCheck off width = .error code := (s.csrCheck_error_iff off width code).mpr hrefused
    constructor
    · intro hadm
      rw [exec_csrRead]
      exact congrArg _ (State.csrAccess_of_error hadm hchk)
    · intro hadm
      rw [exec_csrWrite]
      exact congrArg _ (State.csrAccess_of_error hadm hchk)
  · intro s v off r hadm halign hreg hheld
    rw [exec_csrRead, State.csrRead_of_ok hadm (State.csrCheck_ok halign hreg hheld)]

end Sys2Proof.Machine
end

section
/-!
SUPPORT. Sequencer instructions that write a register, a predicate or the Skillet: what each row runs, which operations have a register
result or a predicate result, and what a destination of g0 or p0 leaves (R70, R99 to R101).
-/

namespace Sys2Proof.Machine

open Sys2Proof

/-! ## Rows of the sequencer -/

/-- Every command of the sequencer runs the instruction of its opcode (Table 3.10). -/
theorem exec_of_mem_seqRows {row : (Nat → Hdr → Word → Instr) × Nat} (hrow : row ∈ seqRows) (n : Nat) (h : Hdr) (b : Word) (s : State) :
    exec (row.1 n h b) s = .next (s.instr n 0 row.2 h b) := by
  have hrows : seqRows.map (fun row => exec (row.1 n h b) s) = seqRows.map fun row => .next (s.instr n 0 row.2 h b) := rfl
  exact List.map_inj_left.mp hrows row hrow

theorem exec_cmp (n : Nat) (h : Hdr) (b : Word) (s : State) : exec (.cmp n h b) s = .next (s.instr n 0 0x20 h b) := rfl

theorem exec_cmpi (n : Nat) (h : Hdr) (b : Word) (s : State) : exec (.cmpi n h b) s = .next (s.instr n 0 0x21 h b) := rfl

theorem exec_plog (n : Nat) (h : Hdr) (b : Word) (s : State) : exec (.plog n h b) s = .next (s.instr n 0 0x22 h b) := rfl

theorem exec_beatge (n : Nat) (h : Hdr) (b : Word) (s : State) : exec (.beatge n h b) s = .next (s.instr n 0 0x23 h b) := rfl

theorem exec_ld (n : Nat) (h : Hdr) (b : Word) (s : State) : exec (.ld n h b) s = .next (s.instr n 0 0x50 h b) := rfl

theorem exec_st (n : Nat) (h : Hdr) (b : Word) (s : State) : exec (.st n h b) s = .next (s.instr n 0 0x51 h b) := rfl

theorem exec_gets (n : Nat) (h : Hdr) (b : Word) (s : State) : exec (.gets n h b) s = .next (s.instr n 0 0x52 h b) := rfl

theorem exec_addi (n : Nat) (h : Hdr) (b : Word) (s : State) : exec (.addi n h b) s = .next (s.instr n 0 0x10 h b) := rfl

theorem exec_loopOp (n : Nat) (h : Hdr) (b : Word) (s : State) : exec (.loopOp n h b) s = .next (s.instr n 0 0x44 h b) := rfl

/-! ## Instructions that are illegal (R76) -/

/-- A field value that Table 3.10, R100 or R101 excludes makes the instruction illegal. -/
theorem seqBad_of_seqFieldBad {e : Entry} (hbad : seqFieldBad e.op e.b = true) : seqBad e = true := by
  unfold seqBad
  cases seqSpare e.op e.b <;> simp [hbad]

/-- An illegal sequencer instruction raises fault 0x48 as it is fetched, before its waits are evaluated. -/
theorem State.instr_of_seqBad {s : State} {n op : Nat} {h : Hdr} {b : Word} (hfetch : s.fetchesNow n 0 op h b = true)
    (hbad : seqBad (s.entryAt n 0 op h b) = true) :
    s.instr n 0 op h b = (s.modCore n CoreSt.fetched).raiseFault n 0 0x48 (s.core n).pc .none := by
  simp only [State.fetchesNow, Bool.and_eq_true, decide_eq_true_eq, beq_iff_eq] at hfetch
  obtain ⟨⟨⟨⟨⟨-, hst⟩, hcur⟩, hpc⟩, hline⟩, hword⟩ := hfetch
  have hfetches : (s.core n).fetches = true := by simp [CoreSt.fetches, hst, hcur]
  unfold State.instr
  simp only []
  rw [if_neg (by simp [hfetches]), if_neg (by omega), if_neg (by simp [hline]), if_pos hword]
  unfold State.current
  exact if_pos (.inl ⟨rfl, hbad⟩)

/-! ## The state as an instruction takes effect -/

theorem State.seqReady_lt {s : State} {n op : Nat} {h : Hdr} {b : Word} (hr : s.seqReady n op h b = true) : n < 192 := by
  simp only [State.seqReady, State.fetchesNow, Bool.and_eq_true, decide_eq_true_eq] at hr
  obtain ⟨⟨⟨⟨⟨⟨⟨⟨⟨hn, -⟩, -⟩, -⟩, -⟩, -⟩, -⟩, -⟩, -⟩, -⟩ := hr
  exact hn

/-- The core whose instruction takes effect, for an instruction that is ready. -/
theorem State.seqReady_dispatched_core {s : State} {n op : Nat} {h : Hdr} {b : Word} (hr : s.seqReady n op h b = true) :
    (s.dispatched n op h b).core n = { (s.core n).taken h with cur := some (entryMet (s.entryAt n 0 op h b)) } :=
  s.dispatched_core n op h b (State.seqReady_lt hr)

/-- An instruction whose operation changes nothing but where the core goes on (R81, R86). -/
theorem State.instr_goes {s : State} {n op : Nat} {h : Hdr} {b : Word} {pc : Nat} (hr : s.seqReady n op h b = true)
    (hp : s.predOn n h = true) (hw : ((s.dispatched n op h b).core n).opWaits (entryMet (s.entryAt n 0 op h b)) = false)
    (ht : (s.dispatched n op h b).seqOp n (entryMet (s.entryAt n 0 op h b)) =
      (s.dispatched n op h b).seqDone n (entryMet (s.entryAt n 0 op h b)) pc true) :
    s.instr n 0 op h b = s.modCore n fun c => (c.taken h).passed h pc := by
  apply s.instr_done n op h b id pc hr hp (fun _ => ⟨rfl, rfl, rfl, rfl⟩) (State.seqReady_fits _ _ _ _ _ hr) (fun _ _ => rfl) hw
  rw [ht, State.modCore_id _ _ id rfl]

/-! ## Register and predicate results (Table 3.10) -/

/-- The operations whose one effect is a register result: formats A, I and W, TGET and GETS. -/
def regResultOps : List Nat :=
  [0x01, 0x02, 0x03, 0x04, 0x05, 0x06, 0x07, 0x08, 0x09, 0x0A, 0x0B, 0x10, 0x11, 0x12, 0x13, 0x14, 0x15, 0x32, 0x52]

/-- The register result of an operation. -/
def State.regResult (s : State) (n : Nat) (e : Entry) : Word :=
  match e.op with
  | 0x32 => toW (vget (s.core n).t (fld e.b 53 48))
  | 0x52 => toW (s.special n (fld e.b 31 0) e.pc)
  | op => if op < 0x0C then aluA op (e.reg 58 54) (e.reg 53 49) else aluI op (e.reg 58 54) e.b

theorem State.seqOp_of_mem_regResultOps {e : Entry} (hop : e.op ∈ regResultOps) (s : State) (n : Nat) :
    s.seqOp n e = s.seqReg n e (s.regResult n e) := by
  have hops : regResultOps.map (fun op => s.seqOp n { e with op := op })
      = regResultOps.map fun op => s.seqReg n { e with op := op } (s.regResult n { e with op := op }) := rfl
  exact List.map_inj_left.mp hops e.op hop

/-- The operations whose one effect is a predicate result. -/
def predResultOps : List Nat := [0x20, 0x21, 0x22, 0x23]

/-- The predicate result of an operation. -/
def State.predResult (s : State) (n : Nat) (e : Entry) : Bool :=
  match e.op with
  | 0x20 => condHolds (fld e.b 47 45) (e.reg 58 54) (e.reg 53 49)
  | 0x21 => condHolds (fld e.b 47 45) (e.reg 58 54) (sextF e.b 31 0)
  | 0x22 => logP (fld e.b 38 37) ((s.core n).getP (fld e.b 44 42)) ((s.core n).getP (fld e.b 41 39))
  | _ => decide ((s.core n).beatBase + fld e.b 23 0 ≤ s.now)

theorem State.seqOp_of_mem_predResultOps {e : Entry} (hop : e.op ∈ predResultOps) (s : State) (n : Nat) :
    s.seqOp n e = s.seqPred n e (s.predResult n e) := by
  have hops : predResultOps.map (fun op => s.seqOp n { e with op := op })
      = predResultOps.map fun op => s.seqPred n { e with op := op } (s.predResult n { e with op := op }) := rfl
  exact List.map_inj_left.mp hops e.op hop

section
variable {s : State} {n op : Nat} {h : Hdr} {b : Word} (hr : s.seqReady n op h b = true) (hp : s.predOn n h = true)
include hr hp

/-- An instruction with a register result. -/
theorem State.instr_regResult (hop : op ∈ regResultOps) :
    s.instr n 0 op h b = s.modCore n fun c =>
      (((c.taken h).setG (fld b 63 59) ((s.dispatched n op h b).regResult n (entryMet (s.entryAt n 0 op h b)))).resultIn n op
        (fld b 63 59)).passed h (c.pc + 16) := by
  have hne : ∀ k, k ∉ regResultOps → op ≠ k := fun k hk hopk => hk (hopk ▸ hop)
  exact s.instr_reg n op h b _ hr hp
    (State.opWaits_false _ _ _ _ _ (hne _ (by decide)) (hne _ (by decide)) (hne _ (by decide)) (hne _ (by decide)))
    (State.seqOp_of_mem_regResultOps hop _ _)

/-- An instruction with a predicate result. -/
theorem State.instr_predResult (hop : op ∈ predResultOps) :
    s.instr n 0 op h b = s.modCore n fun c =>
      ((c.taken h).setP (fld b 61 59) ((s.dispatched n op h b).predResult n (entryMet (s.entryAt n 0 op h b)))).passed h
        (c.pc + 16) := by
  have hne : ∀ k, k ∉ predResultOps → op ≠ k := fun k hk hopk => hk (hopk ▸ hop)
  exact s.instr_pred n op h b _ hr hp
    (State.opWaits_false _ _ _ _ _ (hne _ (by decide)) (hne _ (by decide)) (hne _ (by decide)) (hne _ (by decide)))
    (State.seqOp_of_mem_predResultOps hop _ _)

end

/-- ADDI adds its sign-extended immediate to a register. -/
theorem State.regResult_addi (s t : State) (n : Nat) (h : Hdr) (b : Word) :
    t.regResult n (entryMet (s.entryAt n 0 0x10 h b)) = (s.core n).getG (fld b 58 54) + (b.extractLsb' 0 32).signExtend 64 := by
  rw [← State.entry_reg s n 0x10 h b 58 54 (by decide), ← sext32_eq]
  rfl

/-- GETS reads a special value. -/
theorem State.regResult_gets (s t : State) (n : Nat) (h : Hdr) (b : Word) :
    t.regResult n (entryMet (s.entryAt n 0 0x52 h b)) = .ofNat 64 (t.special n (fld b 31 0) (s.core n).pc) := rfl

/-- CMP compares two registers. -/
theorem State.predResult_cmp (s t : State) (n : Nat) (h : Hdr) (b : Word) :
    t.predResult n (entryMet (s.entryAt n 0 0x20 h b))
      = condHolds (fld b 47 45) ((s.core n).getG (fld b 58 54)) ((s.core n).getG (fld b 53 49)) := by
  rw [← State.entry_reg s n 0x20 h b 58 54 (by decide), ← State.entry_reg s n 0x20 h b 53 49 (by decide)]
  rfl

/-- CMPI compares a register with its sign-extended immediate. -/
theorem State.predResult_cmpi (s t : State) (n : Nat) (h : Hdr) (b : Word) :
    t.predResult n (entryMet (s.entryAt n 0 0x21 h b))
      = condHolds (fld b 47 45) ((s.core n).getG (fld b 58 54)) ((b.extractLsb' 0 32).signExtend 64) := by
  rw [← State.entry_reg s n 0x21 h b 58 54 (by decide), ← sext32_eq]
  rfl

/-- PLOG combines two predicates. -/
theorem State.predResult_plog (s t : State) (n : Nat) (h : Hdr) (b : Word) :
    t.predResult n (entryMet (s.entryAt n 0 0x22 h b))
      = logP (fld b 38 37) ((t.core n).getP (fld b 44 42)) ((t.core n).getP (fld b 41 39)) := rfl

/-- BEATGE compares the beat count with a beat of the program. -/
theorem State.predResult_beatge (s t : State) (n : Nat) (h : Hdr) (b : Word) :
    t.predResult n (entryMet (s.entryAt n 0 0x23 h b)) = decide ((t.core n).beatBase + fld b 23 0 ≤ t.beat.count) := rfl

/-! ## g0 and p0 (R70) -/

@[simp] theorem CoreSt.setG_zero (c : CoreSt) (v : Word) : c.setG 0 v = c := if_pos rfl

@[simp] theorem CoreSt.getG_zero (c : CoreSt) : c.getG 0 = 0 := if_pos rfl

@[simp] theorem CoreSt.setP_zero (c : CoreSt) (v : Bool) : c.setP 0 v = c := if_pos rfl

@[simp] theorem CoreSt.getP_zero (c : CoreSt) : c.getP 0 = true := rfl

@[simp] theorem CoreSt.resultIn_zero (c : CoreSt) (n op : Nat) : c.resultIn n op 0 = c := if_pos rfl

/-- ADDI of g0 is its sign-extended immediate. -/
theorem State.regResult_addi_g0 (s t : State) (n : Nat) (h : Hdr) {b : Word} (hreg : fld b 58 54 = 0) :
    t.regResult n (entryMet (s.entryAt n 0 0x10 h b)) = (b.extractLsb' 0 32).signExtend 64 := by
  rw [State.regResult_addi, hreg, CoreSt.getG_zero]
  exact BitVec.zero_add _

/-- LOOP on g0 falls through: g0 stays 0 (assumption 43). -/
theorem State.seqLoop_g0 (s : State) (n : Nat) {e : Entry} (hreg : fld e.b 58 54 = 0) :
    s.seqLoop n e = s.seqDone n e (e.pc + 16) true := by
  unfold State.seqLoop
  simp only [hreg, CoreSt.getG_zero, if_true]
  rw [State.modCore_id _ _ _ (CoreSt.setG_zero _ _)]

/-! ## The Skillet word of LD and ST (Table 3.8) -/

/-- The word of an instruction at a legal address. -/
theorem State.ldstAddr_legal {s : State} {n op : Nat} {h : Hdr} {b : Word} {a : Nat}
    (ha : a = ((s.core n).getG (fld b 58 54) + (b.extractLsb' 0 32).signExtend 64).toNat) (halign : a % 8 = 0) (htop : a ≤ 0x7FFFF8) :
    ldstAddr (entryMet (s.entryAt n 0 op h b)) = some a := by
  unfold ldstAddr
  simp only [State.entry_reg s n op h b 58 54 (by decide), show (entryMet (s.entryAt n 0 op h b)).b = b from rfl, sext32_eq, ← ha]
  exact if_pos ⟨halign, htop⟩

/-- LD at a legal address has the word as its register result. -/
theorem State.seqOp_ld {s : State} {n : Nat} {h : Hdr} {b : Word} {a : Nat} (hr : s.seqReady n 0x50 h b = true)
    (ha : a = ((s.core n).getG (fld b 58 54) + (b.extractLsb' 0 32).signExtend 64).toNat) (halign : a % 8 = 0) (htop : a ≤ 0x7FFFF8) :
    (s.dispatched n 0x50 h b).seqOp n (entryMet (s.entryAt n 0 0x50 h b)) =
      (s.dispatched n 0x50 h b).seqReg n (entryMet (s.entryAt n 0 0x50 h b)) (.ofNat 64 ((s.core n).skillet.readLE a 8)) := by
  show State.seqLd _ n _ = _
  unfold State.seqLd
  rw [State.ldstAddr_legal ha halign htop, State.seqReady_dispatched_core hr]
  rfl

/-- The state after an LD at a legal address. -/
theorem State.instr_ld {s : State} {n : Nat} {h : Hdr} {b : Word} {a : Nat} (hr : s.seqReady n 0x50 h b = true)
    (hp : s.predOn n h = true) (ha : a = ((s.core n).getG (fld b 58 54) + (b.extractLsb' 0 32).signExtend 64).toNat)
    (halign : a % 8 = 0) (htop : a ≤ 0x7FFFF8) :
    s.instr n 0 0x50 h b = s.modCore n fun c =>
      (((c.taken h).setG (fld b 63 59) (.ofNat 64 (c.skillet.readLE a 8))).resultIn n 0x50 (fld b 63 59)).passed h (c.pc + 16) := by
  rw [s.instr_reg n 0x50 h b _ hr hp (State.opWaits_false _ _ _ _ _ (by decide) (by decide) (by decide) (by decide))
    (State.seqOp_ld hr ha halign htop)]
  exact State.modCore_congr _ _ _ _ rfl

/-- A core whose Skillet word at `a` takes a value. -/
def CoreSt.storeWord (c : CoreSt) (a v : Nat) : CoreSt := { c with skillet := c.skillet.writeLE a 8 v }

/-- ST at a legal address outside the program region stores its register. -/
theorem State.seqOp_st {s : State} {n : Nat} {h : Hdr} {b : Word} {a : Nat} (hr : s.seqReady n 0x51 h b = true)
    (ha : a = ((s.core n).getG (fld b 58 54) + (b.extractLsb' 0 32).signExtend 64).toNat) (halign : a % 8 = 0) (htop : a ≤ 0x7FFFF8)
    (hprog : (s.core n).progEnd ≤ a) :
    (s.dispatched n 0x51 h b).seqOp n (entryMet (s.entryAt n 0 0x51 h b)) =
      ((s.dispatched n 0x51 h b).modCore n fun c => c.storeWord a ((s.core n).getG (fld b 63 59)).toNat).seqDone n
        (entryMet (s.entryAt n 0 0x51 h b)) ((s.core n).pc + 16) true := by
  show State.seqSt _ n _ = _
  unfold State.seqSt
  rw [State.ldstAddr_legal ha halign htop, State.seqReady_dispatched_core hr]
  simp only [State.entry_reg s n 0x51 h b 63 59 (by decide)]
  exact if_neg (Nat.not_lt.mpr hprog)

/-- The state after an ST at a legal address outside the program region. -/
theorem State.instr_st {s : State} {n : Nat} {h : Hdr} {b : Word} {a : Nat} (hr : s.seqReady n 0x51 h b = true)
    (hp : s.predOn n h = true) (ha : a = ((s.core n).getG (fld b 58 54) + (b.extractLsb' 0 32).signExtend 64).toNat)
    (halign : a % 8 = 0) (htop : a ≤ 0x7FFFF8) (hprog : (s.core n).progEnd ≤ a) :
    s.instr n 0 0x51 h b =
      s.modCore n fun c => ((c.taken h).storeWord a (c.getG (fld b 63 59)).toNat).passed h (c.pc + 16) := by
  rw [s.instr_done n 0x51 h b (fun c => c.storeWord a ((s.core n).getG (fld b 63 59)).toNat) ((s.core n).pc + 16) hr hp
    (fun _ => ⟨rfl, rfl, rfl, rfl⟩) (State.seqReady_fits _ _ _ _ _ hr) (fun _ _ => rfl)
    (State.opWaits_false _ _ _ _ _ (by decide) (by decide) (by decide) (by decide)) (State.seqOp_st hr ha halign htop hprog)]
  exact State.modCore_congr _ _ _ _ rfl

/-! ## The values of Tables 3.11 and 3.12 and of LOP -/

/-- The tests of Table 3.11. -/
def condTests : List (Nat × (Word → Word → Bool)) :=
  [(0, fun x y => decide (x = y)), (1, fun x y => decide (x ≠ y)), (2, fun x y => decide (x.toInt < y.toInt)),
    (3, fun x y => decide (y.toInt ≤ x.toInt)), (4, fun x y => decide (x.toNat < y.toNat)), (5, fun x y => decide (y.toNat ≤ x.toNat))]

theorem condHolds_of_mem_condTests {row : Nat × (Word → Word → Bool)} (hrow : row ∈ condTests) (x y : Word) :
    condHolds row.1 x y = row.2 x y := by
  simp only [condTests, List.mem_cons, List.not_mem_nil, or_false] at hrow
  rcases hrow with rfl | rfl | rfl | rfl | rfl | rfl
  · rfl
  · exact (decide_not (p := x = y)).symm
  · rfl
  · simp only [condHolds, BitVec.slt, ← decide_not, Int.not_lt]
  · rfl
  · rfl

/-- What LOP of PLOG combines two predicates to. -/
def logTests : List (Nat × (Bool → Bool → Bool)) :=
  [(0, fun x y => x && y), (1, fun x y => x || y), (2, fun x y => xor x y), (3, fun x y => x && !y)]

theorem logP_of_mem_logTests {row : Nat × (Bool → Bool → Bool)} (hrow : row ∈ logTests) (x y : Bool) :
    logP row.1 x y = row.2 x y := by
  simp only [logTests, List.mem_cons, List.not_mem_nil, or_false] at hrow
  rcases hrow with rfl | rfl | rfl | rfl
  · rfl
  · rfl
  · rfl
  · rfl

/-- The special values of Table 3.12, as core `n` reads them. -/
def State.specials (s : State) (n : Nat) : List (Nat × Nat) :=
  [(0, n), (1, s.cfg.pkgId), (2, s.beat.count), (3, (s.core n).beatBase), (4, (s.core n).part), (5, 0x100000), (6, (s.core n).paramLen),
    (7, (s.core n).pc)]

theorem State.special_of_mem_specials {s : State} {n : Nat} {row : Nat × Nat} (hrow : row ∈ s.specials n) :
    s.special n row.1 (s.core n).pc = row.2 := by
  have hvalues : (s.specials n).map (fun row => s.special n row.1 (s.core n).pc) = (s.specials n).map Prod.snd := rfl
  exact List.map_inj_left.mp hvalues row hrow

/-- What a fetch changes of a core is no special value. -/
theorem State.special_dispatched {s : State} {n op : Nat} {h : Hdr} {b : Word} (hr : s.seqReady n op h b = true) (i pc : Nat) :
    (s.dispatched n op h b).special n i pc = s.special n i pc := by
  unfold State.special
  rw [State.seqReady_dispatched_core hr]
  rfl

/-! ## The obligations -/

/-- Settles O3: each instruction has one predicate result, which the tables of COND and LOP name; an undefined COND is a field value that
makes the instruction illegal. -/
theorem predicateRegisterResults : Obligations.PredicateRegisterResults := by
  unfold Obligations.PredicateRegisterResults
  refine ⟨⟨?cond, ?reserved⟩, ?logic⟩
  case cond =>
    intro s n h b row hrow hcond hp
    constructor
    · intro hr
      rw [exec_cmp, State.instr_predResult hr hp (by decide), State.predResult_cmp, hcond, condHolds_of_mem_condTests hrow]
      exact congrArg _ (State.modCore_congr _ _ _ _ rfl)
    · intro hr
      rw [exec_cmpi, State.instr_predResult hr hp (by decide), State.predResult_cmpi, hcond, condHolds_of_mem_condTests hrow]
      exact congrArg _ (State.modCore_congr _ _ _ _ rfl)
  case reserved =>
    intro s n h b hcond row hrow hfetch
    obtain ⟨hseq, hbad⟩ : row ∈ seqRows ∧ seqFieldBad row.2 b = true := by
      simp only [List.mem_cons, List.not_mem_nil, or_false] at hrow
      rcases hrow with rfl | rfl <;> exact ⟨by simp [seqRows], decide_eq_true hcond⟩
    rw [exec_of_mem_seqRows hseq, State.instr_of_seqBad hfetch (seqBad_of_seqFieldBad hbad)]
  case logic =>
    intro s n h b hp
    constructor
    · intro row hrow hlop hr
      rw [exec_plog, State.instr_predResult hr hp (by decide), State.predResult_plog, State.seqReady_dispatched_core hr, hlop,
        logP_of_mem_logTests hrow]
      exact congrArg _ (State.modCore_congr _ _ _ _ rfl)
    · intro hr
      rw [exec_beatge, State.instr_predResult hr hp (by decide), State.predResult_beatge, State.seqReady_dispatched_core hr]
      exact congrArg _ (State.modCore_congr _ _ _ _ rfl)

/-- Settles O4: whatever an operation writes to g0 or p0 is discarded, and g0 as an operand is 0. -/
theorem constantRegisters : Obligations.ConstantRegisters := by
  unfold Obligations.ConstantRegisters
  intro s n h b hp
  refine ⟨?regDest, ?predDest, fun hreg hr => ?addi, fun a ha halign htop hd hr => ?ld, fun hreg hr => ?loop, CoreSt.getG_zero _,
    CoreSt.getP_zero _, fun hpred => ?pneg⟩
  case regDest =>
    intro row hrow hd hr
    obtain ⟨hseq, hop⟩ : row ∈ seqRows ∧ row.2 ∈ regResultOps := by
      revert row
      simp [seqRows, regResultOps]
    rw [exec_of_mem_seqRows hseq, State.instr_regResult hr hp hop, hd]
    simp only [CoreSt.setG_zero, CoreSt.resultIn_zero]
  case predDest =>
    intro row hrow hd hr
    obtain ⟨hseq, hop⟩ : row ∈ seqRows ∧ row.2 ∈ predResultOps := by
      revert row
      simp [seqRows, predResultOps]
    rw [exec_of_mem_seqRows hseq, State.instr_predResult hr hp hop, hd]
    simp only [CoreSt.setP_zero]
  case addi =>
    rw [exec_addi, State.instr_regResult hr hp (by decide), State.regResult_addi_g0 s _ n h hreg]
    simp only [CoreSt.resultIn_soon _ n 0x10 _ (by decide) (by decide)]
  case ld =>
    rw [exec_ld, State.instr_ld hr hp ha halign htop, hd]
    simp only [CoreSt.setG_zero, CoreSt.resultIn_zero]
  case loop =>
    rw [exec_loopOp, State.instr_goes hr hp (State.opWaits_false _ _ _ _ _ (by decide) (by decide) (by decide) (by decide))
      (State.seqLoop_g0 _ n hreg)]
    exact congrArg _ (State.modCore_congr _ _ _ _ rfl)
  case pneg =>
    simpa [State.predOn, hpred] using hp

/-- Settles O7: LD and GETS have a register result, ST changes one Skillet word, and an undefined index of GETS is a field value that makes
the instruction illegal. -/
theorem loadStoreResults : Obligations.LoadStoreResults := by
  unfold Obligations.LoadStoreResults
  intro s n h b a hp ha
  refine ⟨fun hr halign htop => ?ld, fun hr halign htop hprog => ?st, fun hr row hrow hidx => ?gets, fun hidx hfetch => ?undefined⟩
  case ld => rw [exec_ld, State.instr_ld hr hp ha halign htop]
  case st =>
    rw [exec_st, State.instr_st hr hp ha halign htop hprog]
    rfl
  case gets =>
    rw [exec_gets, State.instr_regResult hr hp (by decide), State.regResult_gets, State.special_dispatched hr, hidx,
      State.special_of_mem_specials hrow]
    simp only [CoreSt.resultIn_soon _ n 0x52 _ (by decide) (by decide)]
  case undefined =>
    have hbad : seqFieldBad 0x52 b = true := by
      rw [seqFieldBad, Bool.or_eq_true]
      exact .inr (decide_eq_true hidx)
    rw [exec_gets, State.instr_of_seqBad hfetch (seqBad_of_seqFieldBad hbad)]

end Sys2Proof.Machine
end
